-- ==== Sys2Proof/Word.lean ====
section
/-! DEFINITION. The word types of the machine: bytes, XLEN-bit words, matrix rows and the register
fields of an instruction (00_scope.md R5 to R7, 30_encoding.md R117). -/

namespace Sys2Proof

/-- One byte of memory (20_memory.md R80). -/
abbrev Byte := BitVec 8

/-- An `XLEN`-bit value of the host hart. On RV32 the upper half is zero (00_scope.md R4). -/
abbrev Word := BitVec 64

/-- One row of a matrix register, wide enough for the largest `MLEN`; the `MLEN` low bits are the
row (10_state.md R31). -/
abbrev Row := BitVec 512

/-- A matrix register: its `ROWS` rows, row 0 first (10_state.md R31). -/
abbrev MReg := List Row

/-- A 3-bit matrix register field; it names `M[f]` (30_encoding.md R117). -/
abbrev MIdx := BitVec 3

/-- A 5-bit integer register field; it names `x[f]` (30_encoding.md R117). -/
abbrev XIdx := BitVec 5

/-- A 3-bit integer register field; it names `x[8 + f]` (30_encoding.md R117). -/
abbrev XcIdx := BitVec 3

/-- The integer register that a 3-bit field names (00_scope.md R7). -/
def XcIdx.toX (f : XcIdx) : XIdx := 8#5 + f.setWidth 5

end Sys2Proof
end

