-- ==== Sys2Proof/Config.lean ====
section
/-! DEFINITION. What an implementation fixes (00_scope.md R4), as plain data, and the free values
that the spec leaves open, as constants without a body. -/

namespace Sys2Proof

/-- `MLEN`, the bits of one matrix register row (00_scope.md R4). -/
inductive Mlen where
  | m128 | m256 | m512
deriving DecidableEq, Repr

/-- `XLEN`, the width of the host's registers (00_scope.md R4, decision D1). -/
inductive Xlen where
  | x32 | x64
deriving DecidableEq, Repr

/-- `SU_ORDER`: whether the first or the second letter of `us`/`su` describes operand A
(41_matmul_int.md R181, decision D9). -/
inductive SuOrder where
  | aFirst | bFirst
deriving DecidableEq, Repr

/-- `RESERVED_POLICY`: what a reserved case does (60_exceptions.md R429, decision D20). -/
inductive ReservedPolicy where
  | refuse | illegalInstruction
deriving DecidableEq, Repr

/-- `MISALIGNED_POLICY`: what a misaligned element access does (20_memory.md R84, decision D26). -/
inductive MisalignedPolicy where
  | refuse | trap | split
deriving DecidableEq, Repr

/-- What a data access to a byte meets (20_memory.md R87 to R89): admitted main memory, a protection
or attribute failure, a translation failure, or memory with side effects (RESERVED, R87). -/
inductive Reach where
  | ok | accessFault | pageFault | sideEffects
deriving DecidableEq, Repr

/-- What fetching a byte meets (60_exceptions.md R421). -/
inductive FetchReach where
  | ok | accessFault | pageFault
deriving DecidableEq, Repr

/-- What the three kinds of access to one byte meet. -/
structure Access where
  read : Reach
  write : Reach
  fetch : FetchReach
deriving DecidableEq, Repr

/-- A range of byte addresses, `size` bytes from `base` on, and what an access to it meets. -/
structure Region where
  base : Nat
  size : Nat
  access : Access
deriving DecidableEq, Repr

/-- `MEM_MAP` (20_memory.md R89, decision D49): the first region that holds an address decides, and
`elsewhere` holds for an address in none. -/
structure MemMap where
  regions : List Region
  elsewhere : Access
deriving DecidableEq, Repr

/-- The map of each privilege level: an element access is checked as a scalar access made at the
current privilege level would be (20_memory.md R90, decision D42). -/
structure MemMaps where
  machine : MemMap
  supervisor : MemMap
  user : MemMap
deriving DecidableEq, Repr

/-- `CSR_ADDR`: the addresses of the six CSRs that the manual prints as `xxxx`
(10_state.md R36, decision D14). -/
structure CsrAddrs where
  xmrstart : BitVec 12
  xmcsr : BitVec 12
  xmxrm : BitVec 12
  xmxsat : BitVec 12
  xmsize : BitVec 12
  xmisa : BitVec 12
deriving DecidableEq, Repr

/-- The parameters of the model (00_scope.md R4) and the host's choices that rules of spec/ leave
to the implementation. -/
structure Config where
  mlen : Mlen
  xlen : Xlen
  /-- `XMISA[9:0]` but for bit 1, which is compulsory (10_state.md R44). -/
  features : BitVec 10
  hasBf16 : Bool
  /-- `FCSR_BF16_BIT`, at least 8 (decision D13). -/
  bf16Bit : Nat
  csrAddr : CsrAddrs
  /-- `MS_POS`, the lower bit of the `MS` field of `mstatus` (decision D17). -/
  msPos : Nat
  suOrder : SuOrder
  reservedPolicy : ReservedPolicy
  misalignedPolicy : MisalignedPolicy
  memMaps : MemMaps
  /-- The trap value of IllegalInstruction is the instruction word; otherwise it is 0
  (60_exceptions.md R422). -/
  illegalTvalIsWord : Bool
  /-- The trap value of a breakpoint is `pc`; otherwise it is 0 (log 32). -/
  breakpointTvalIsPc : Bool
  /-- The host has the compressed extension, so `pc` is 2-byte aligned (20_memory.md R84). -/
  compressed : Bool
  /-- Addresses at which the host has a CSR that spec/ does not describe. -/
  hostCsrs : List (BitVec 12)
deriving DecidableEq, Repr

/-- `MLEN` in bits. -/
def Mlen.bits : Mlen → Nat
  | .m128 => 128
  | .m256 => 256
  | .m512 => 512

/-- `XLEN` in bits. -/
def Xlen.bits : Xlen → Nat
  | .x32 => 32
  | .x64 => 64

namespace Config

/-- `ROWS = MLEN/32` (10_state.md R31). -/
def rows (c : Config) : Nat := c.mlen.bits / 32

/-- `MLENB = MLEN/8` (10_state.md R50). -/
def mlenb (c : Config) : Nat := c.mlen.bits / 8

/-- `REGBYTES = ROWS * MLENB` (10_state.md R49). -/
def regBytes (c : Config) : Nat := c.rows * c.mlenb

/-- `XMISA[9:0]`, whose bit 1 is always set (10_state.md R44). -/
def xmisa (c : Config) : BitVec 10 := c.features ||| 2#10

/-- Every byte is admitted main memory. -/
def openMap : MemMap :=
  { regions := [], elsewhere := { read := .ok, write := .ok, fetch := .ok } }

/-- The configuration of the test vectors (95_test_vectors.md, Conventions). The model's own, DESIGN CHOICE,
unsafe, are the open addresses and bit positions (log 17) and what the vectors do not fix of the host: no
compressed extension, so that `pc` is 4-byte aligned, every address main memory, no further CSR, and the trap
values (logs 1, 20, 24, 32). -/
def standard : Config where
  mlen := .m128
  xlen := .x64
  features := 0x3FF#10
  hasBf16 := false
  bf16Bit := 8
  csrAddr :=
    { xmrstart := 0x800#12, xmcsr := 0x801#12, xmxrm := 0x802#12
      xmxsat := 0xCC0#12, xmsize := 0xCC1#12, xmisa := 0xCC4#12 }
  msPos := 25
  suOrder := .aFirst
  reservedPolicy := .refuse
  misalignedPolicy := .refuse
  memMaps := { machine := openMap, supervisor := openMap, user := openMap }
  illegalTvalIsWord := true
  breakpointTvalIsPc := true
  compressed := false
  hostCsrs := []

end Config

/-- The five float matrix multiplications, which select the function of `fdot`
(40_matmul_float.md R155). -/
inductive FloatOp where
  | fmmaccH | fmmaccS | fmmaccD | fwmmaccH | fwmmaccS
deriving DecidableEq, Repr

/-- The free choice made at the `n`-th draw: which of several allowed outcomes occurs
(20_memory.md R86, R94, 42_load_store.md R216, 60_exceptions.md R427; logs 8 to 11). No body. -/
opaque Config.freeChoice : Nat → Nat

/-- What a read of a timing counter gives: the CSR address, and the number of the draw
(60_exceptions.md R439; log 34). No body. -/
opaque Config.freeTimer : BitVec 12 → Nat → Word

/-- The free contents of a register row that a trapped load leaves unspecified
(42_load_store.md R216 item 3; log 7). No body. -/
opaque Config.freeRow : Nat → Row

/-- How an implementation evaluates one sum of finite terms: the order of its additions, the roundings
of its intermediate values and their precision, which 40_matmul_float.md R155 P4 leaves to it. It is no
part of State. -/
structure SumPlan where
  /-- Entries `2*i` and `2*i + 1` name the two values that addition `i` adds. -/
  order : Nat → Nat
  /-- `none`: value `i` is kept exactly; `some k`: it is rounded to `k` bits more than the least
  precision of an intermediate value. -/
  extra : Nat → Option Nat
  /-- NX is raised where precision was lost before the last addition alone. -/
  inexact : Bool
deriving Inhabited

/-- The evaluation that a float dot product uses (40_matmul_float.md R155 P4; log 12). No body. -/
opaque Config.fdotPlan (op : FloatOp) (c : Word) (a b : List Word) (rm : BitVec 3) (bf16 : Bool) :
  SumPlan

/-- Whether a float dot product that is exactly zero gives -0, where its terms are not all zeros of
one sign (40_matmul_float.md R155; log 13). No body. -/
opaque Config.fdotZeroNegative (op : FloatOp) (c : Word) (a b : List Word) (rm : BitVec 3)
  (bf16 : Bool) : Bool

/-- The flags of a float dot product with a NaN operand (40_matmul_float.md R155 P1 says nothing of
them; log 13). No body. -/
opaque Config.fdotNanFlags (op : FloatOp) (c : Word) (a b : List Word) (rm : BitVec 3)
  (bf16 : Bool) : BitVec 5

end Sys2Proof
end

