-- ==== Sys2Proof/Syntax.lean ====
section
/-! DEFINITION. The instructions: one constructor of `Instr` for each row of spec/opcode_table.json
(30_encoding.md R125), the host instructions that spec/ gives a meaning to (47_host_interface.md R404,
R409, 60_exceptions.md R433, 20_memory.md R92, R94), and the reasons for which a case is RESERVED. -/

namespace Sys2Proof

/-- Why a case is RESERVED (30_encoding.md R127, 70_reset_and_hazards.md R467). -/
inductive Reserved where
  /-- `uop = 110` (R127). -/
  | uop
  /-- An unassigned `func` (R127). -/
  | func
  /-- `func3 != 000` in the matrix opcode space (70_reset_and_hazards.md R467 row 1). -/
  | func3
  /-- A field that the row prints as a constant holds another value (R120, R127). -/
  | constantField
  /-- A float matrix multiplication of an unsupported width (R127). -/
  | floatWidth
  /-- An integer matrix multiplication of an unsupported width (R127). -/
  | intWidth
  /-- `inst[17:15] = 1xx` in an integer matrix multiplication (R119, R127). -/
  | intSubOp
  /-- A pointwise instruction of a width other than 32 or 64 bits (R127). -/
  | pointwiseWidth
  /-- `inst[24:23] != 00` in a whole-register load/store (R118, R127). -/
  | wholeRs2
  /-- `nf` not in 000, 001, 011, 111 (R123, R127). -/
  | nf
  /-- An unassigned configuration `index` (R124, R127). -/
  | cfgIndex
  /-- `rd != 0` in a configuration instruction (R117, R127). -/
  | cfgRd
  /-- `xmrstart` is not zero at an instruction other than a load/store (R132), or it lies past the
  rows of a load/store (42_load_store.md R212, R213, R215). -/
  | startRow
  /-- `xmsize` is outside the limits of the instruction (10_state.md R46, R47). -/
  | shape
  /-- A destination of a matrix multiplication is a multiplicand (R133). -/
  | overlap
  /-- The first register of a pair is odd (10_state.md R34). -/
  | oddPair
  /-- A register number that is no multiple of the register count (42_load_store.md R215). -/
  | registerAlign
  /-- A row index not below `ROWS` (43_move.md R281, 45_pointwise_arith.md R312). -/
  | rowIndex
  /-- A configuration value that does not fit its field (44_config.md R292). -/
  | cfgValue
  /-- A misaligned element address under `MISALIGNED_POLICY = refuse` (20_memory.md R84). -/
  | misaligned
  /-- An element address in memory with side effects (20_memory.md R87). -/
  | sideEffects
  /-- A CSR write of non-zero reserved bits (10_state.md R39, R40). -/
  | csrBits
deriving DecidableEq, Repr

/-- The matrix instructions, with their operand fields in the order of the assembler syntax
(30_encoding.md R129). -/
inductive Instr where
  /-- `mmov.mm` (R283). -/
  | mmovMm (md ms1 : MIdx)
  /-- `mmov.mv.x` (R284). -/
  | mmovMvX (md ms1 : MIdx) (rs1 : XcIdx)
  /-- `mmov.mv.i` (R285). -/
  | mmovMvI (md ms1 : MIdx) (uimm3 : BitVec 3)
  /-- `mmov.mx` (R286). -/
  | mmovMx (md : MIdx) (rs1 : XcIdx)
  /-- `fmmacc.h` (R159). -/
  | fmmaccH (md ms2 ms1 : MIdx)
  /-- `fmmacc.s` (R160). -/
  | fmmaccS (md ms2 ms1 : MIdx)
  /-- `fmmacc.d` (R161). -/
  | fmmaccD (md ms2 ms1 : MIdx)
  /-- `fwmmacc.h` (R162). -/
  | fwmmaccH (md ms2 ms1 : MIdx)
  /-- `fwmmacc.s` (R163). -/
  | fwmmaccS (md ms2 ms1 : MIdx)
  /-- `mmaqa.b` (R186). -/
  | mmaqaB (md ms2 ms1 : MIdx)
  /-- `mmaqau.b` (R187). -/
  | mmaqauB (md ms2 ms1 : MIdx)
  /-- `mmaqaus.b` (R188). -/
  | mmaqausB (md ms2 ms1 : MIdx)
  /-- `mmaqasu.b` (R189). -/
  | mmaqasuB (md ms2 ms1 : MIdx)
  /-- `mmaqa.h` (R190). -/
  | mmaqaH (md ms2 ms1 : MIdx)
  /-- `mmaqau.h` (R191). -/
  | mmaqauH (md ms2 ms1 : MIdx)
  /-- `mmaqaus.h` (R192). -/
  | mmaqausH (md ms2 ms1 : MIdx)
  /-- `mmaqasu.h` (R193). -/
  | mmaqasuH (md ms2 ms1 : MIdx)
  /-- `pmmaqa.b` (R194). -/
  | pmmaqaB (md ms2 ms1 : MIdx)
  /-- `pmmaqau.b` (R195). -/
  | pmmaqauB (md ms2 ms1 : MIdx)
  /-- `pmmaqaus.b` (R196). -/
  | pmmaqausB (md ms2 ms1 : MIdx)
  /-- `pmmaqasu.b` (R197). -/
  | pmmaqasuB (md ms2 ms1 : MIdx)
  /-- `madd.s.mm` (R320). -/
  | maddSMm (md ms2 ms1 : MIdx)
  /-- `madd.s.mv.x` (R321). -/
  | maddSMvX (md ms2 ms1 : MIdx) (rs1 : XcIdx)
  /-- `madd.s.mv.i` (R322). -/
  | maddSMvI (md ms2 ms1 : MIdx) (uimm3 : BitVec 3)
  /-- `madd.s.mx` (R323). -/
  | maddSMx (md ms2 : MIdx) (rs1 : XcIdx)
  /-- `madd.d.mm` (R324). -/
  | maddDMm (md ms2 ms1 : MIdx)
  /-- `madd.d.mv.x` (R325). -/
  | maddDMvX (md ms2 ms1 : MIdx) (rs1 : XcIdx)
  /-- `madd.d.mv.i` (R326). -/
  | maddDMvI (md ms2 ms1 : MIdx) (uimm3 : BitVec 3)
  /-- `madd.d.mx` (R327). -/
  | maddDMx (md ms2 : MIdx) (rs1 : XcIdx)
  /-- `msub.s.mm` (R328). -/
  | msubSMm (md ms2 ms1 : MIdx)
  /-- `msub.s.mv.x` (R329). -/
  | msubSMvX (md ms2 ms1 : MIdx) (rs1 : XcIdx)
  /-- `msub.s.mv.i` (R330). -/
  | msubSMvI (md ms2 ms1 : MIdx) (uimm3 : BitVec 3)
  /-- `msub.s.mx` (R331). -/
  | msubSMx (md ms2 : MIdx) (rs1 : XcIdx)
  /-- `msub.d.mm` (R332). -/
  | msubDMm (md ms2 ms1 : MIdx)
  /-- `msub.d.mv.x` (R333). -/
  | msubDMvX (md ms2 ms1 : MIdx) (rs1 : XcIdx)
  /-- `msub.d.mv.i` (R334). -/
  | msubDMvI (md ms2 ms1 : MIdx) (uimm3 : BitVec 3)
  /-- `msub.d.mx` (R335). -/
  | msubDMx (md ms2 : MIdx) (rs1 : XcIdx)
  /-- `mmul.s.mm` (R336). -/
  | mmulSMm (md ms2 ms1 : MIdx)
  /-- `mmul.s.mv.x` (R337). -/
  | mmulSMvX (md ms2 ms1 : MIdx) (rs1 : XcIdx)
  /-- `mmul.s.mv.i` (R338). -/
  | mmulSMvI (md ms2 ms1 : MIdx) (uimm3 : BitVec 3)
  /-- `mmul.s.mx` (R339). -/
  | mmulSMx (md ms2 : MIdx) (rs1 : XcIdx)
  /-- `mmul.d.mm` (R340). -/
  | mmulDMm (md ms2 ms1 : MIdx)
  /-- `mmul.d.mv.x` (R341). -/
  | mmulDMvX (md ms2 ms1 : MIdx) (rs1 : XcIdx)
  /-- `mmul.d.mv.i` (R342). -/
  | mmulDMvI (md ms2 ms1 : MIdx) (uimm3 : BitVec 3)
  /-- `mmul.d.mx` (R343). -/
  | mmulDMx (md ms2 : MIdx) (rs1 : XcIdx)
  /-- `mmulh.s.mm` (R344). -/
  | mmulhSMm (md ms2 ms1 : MIdx)
  /-- `mmulh.s.mv.x` (R345). -/
  | mmulhSMvX (md ms2 ms1 : MIdx) (rs1 : XcIdx)
  /-- `mmulh.s.mv.i` (R346). -/
  | mmulhSMvI (md ms2 ms1 : MIdx) (uimm3 : BitVec 3)
  /-- `mmulh.s.mx` (R347). -/
  | mmulhSMx (md ms2 : MIdx) (rs1 : XcIdx)
  /-- `mmulh.d.mm` (R348). -/
  | mmulhDMm (md ms2 ms1 : MIdx)
  /-- `mmulh.d.mv.x` (R349). -/
  | mmulhDMvX (md ms2 ms1 : MIdx) (rs1 : XcIdx)
  /-- `mmulh.d.mv.i` (R350). -/
  | mmulhDMvI (md ms2 ms1 : MIdx) (uimm3 : BitVec 3)
  /-- `mmulh.d.mx` (R351). -/
  | mmulhDMx (md ms2 : MIdx) (rs1 : XcIdx)
  /-- `msra.s.mm` (R370). -/
  | msraSMm (md ms2 ms1 : MIdx)
  /-- `msra.s.mv.x` (R371). -/
  | msraSMvX (md ms2 ms1 : MIdx) (rs1 : XcIdx)
  /-- `msra.s.mv.i` (R372). -/
  | msraSMvI (md ms2 ms1 : MIdx) (uimm3 : BitVec 3)
  /-- `msra.s.mx` (R373). -/
  | msraSMx (md ms2 : MIdx) (rs1 : XcIdx)
  /-- `msra.d.mm` (R374). -/
  | msraDMm (md ms2 ms1 : MIdx)
  /-- `msra.d.mv.x` (R375). -/
  | msraDMvX (md ms2 ms1 : MIdx) (rs1 : XcIdx)
  /-- `msra.d.mv.i` (R376). -/
  | msraDMvI (md ms2 ms1 : MIdx) (uimm3 : BitVec 3)
  /-- `msra.d.mx` (R377). -/
  | msraDMx (md ms2 : MIdx) (rs1 : XcIdx)
  /-- `mn4clip.s.mm` (R378). -/
  | mn4clipSMm (md ms2 ms1 : MIdx)
  /-- `mn4clip.s.mv.x` (R379). -/
  | mn4clipSMvX (md ms2 ms1 : MIdx) (rs1 : XcIdx)
  /-- `mn4clip.s.mv.i` (R380). -/
  | mn4clipSMvI (md ms2 ms1 : MIdx) (uimm3 : BitVec 3)
  /-- `mn4clip.s.mx` (R381). -/
  | mn4clipSMx (md ms2 : MIdx) (rs1 : XcIdx)
  /-- `mn4clip.d.mm` (R382). -/
  | mn4clipDMm (md ms2 ms1 : MIdx)
  /-- `mn4clip.d.mv.x` (R383). -/
  | mn4clipDMvX (md ms2 ms1 : MIdx) (rs1 : XcIdx)
  /-- `mn4clip.d.mv.i` (R384). -/
  | mn4clipDMvI (md ms2 ms1 : MIdx) (uimm3 : BitVec 3)
  /-- `mn4clip.d.mx` (R385). -/
  | mn4clipDMx (md ms2 : MIdx) (rs1 : XcIdx)
  /-- `mn4clipu.s.mm` (R386). -/
  | mn4clipuSMm (md ms2 ms1 : MIdx)
  /-- `mn4clipu.s.mv.x` (R387). -/
  | mn4clipuSMvX (md ms2 ms1 : MIdx) (rs1 : XcIdx)
  /-- `mn4clipu.s.mv.i` (R388). -/
  | mn4clipuSMvI (md ms2 ms1 : MIdx) (uimm3 : BitVec 3)
  /-- `mn4clipu.s.mx` (R389). -/
  | mn4clipuSMx (md ms2 : MIdx) (rs1 : XcIdx)
  /-- `mn4clipu.d.mm` (R390). -/
  | mn4clipuDMm (md ms2 ms1 : MIdx)
  /-- `mn4clipu.d.mv.x` (R391). -/
  | mn4clipuDMvX (md ms2 ms1 : MIdx) (rs1 : XcIdx)
  /-- `mn4clipu.d.mv.i` (R392). -/
  | mn4clipuDMvI (md ms2 ms1 : MIdx) (uimm3 : BitVec 3)
  /-- `mn4clipu.d.mx` (R393). -/
  | mn4clipuDMx (md ms2 : MIdx) (rs1 : XcIdx)
  /-- `mldb` (R220). -/
  | mldb (md : MIdx) (rs2 rs1 : XIdx)
  /-- `mldh` (R221). -/
  | mldh (md : MIdx) (rs2 rs1 : XIdx)
  /-- `mldw` (R222). -/
  | mldw (md : MIdx) (rs2 rs1 : XIdx)
  /-- `mldd` (R223). -/
  | mldd (md : MIdx) (rs2 rs1 : XIdx)
  /-- `mstb` (R224). -/
  | mstb (ms3 : MIdx) (rs2 rs1 : XIdx)
  /-- `msth` (R225). -/
  | msth (ms3 : MIdx) (rs2 rs1 : XIdx)
  /-- `mstw` (R226). -/
  | mstw (ms3 : MIdx) (rs2 rs1 : XIdx)
  /-- `mstd` (R227). -/
  | mstd (ms3 : MIdx) (rs2 rs1 : XIdx)
  /-- `msldb` (R228). -/
  | msldb (md : MIdx) (rs2 rs1 : XIdx)
  /-- `msldh` (R229). -/
  | msldh (md : MIdx) (rs2 rs1 : XIdx)
  /-- `msldw` (R230). -/
  | msldw (md : MIdx) (rs2 rs1 : XIdx)
  /-- `msldd` (R231). -/
  | msldd (md : MIdx) (rs2 rs1 : XIdx)
  /-- `msstb` (R232). -/
  | msstb (ms3 : MIdx) (rs2 rs1 : XIdx)
  /-- `mssth` (R233). -/
  | mssth (ms3 : MIdx) (rs2 rs1 : XIdx)
  /-- `msstw` (R234). -/
  | msstw (ms3 : MIdx) (rs2 rs1 : XIdx)
  /-- `msstd` (R235). -/
  | msstd (ms3 : MIdx) (rs2 rs1 : XIdx)
  /-- `mld1mb` (R236). -/
  | mld1mb (md : MIdx) (rs1 : XIdx)
  /-- `mld1mh` (R237). -/
  | mld1mh (md : MIdx) (rs1 : XIdx)
  /-- `mld1mw` (R238). -/
  | mld1mw (md : MIdx) (rs1 : XIdx)
  /-- `mld1md` (R239). -/
  | mld1md (md : MIdx) (rs1 : XIdx)
  /-- `mld2mb` (R240). -/
  | mld2mb (md : MIdx) (rs1 : XIdx)
  /-- `mld2mh` (R241). -/
  | mld2mh (md : MIdx) (rs1 : XIdx)
  /-- `mld2mw` (R242). -/
  | mld2mw (md : MIdx) (rs1 : XIdx)
  /-- `mld2md` (R243). -/
  | mld2md (md : MIdx) (rs1 : XIdx)
  /-- `mld4mb` (R244). -/
  | mld4mb (md : MIdx) (rs1 : XIdx)
  /-- `mld4mh` (R245). -/
  | mld4mh (md : MIdx) (rs1 : XIdx)
  /-- `mld4mw` (R246). -/
  | mld4mw (md : MIdx) (rs1 : XIdx)
  /-- `mld4md` (R247). -/
  | mld4md (md : MIdx) (rs1 : XIdx)
  /-- `mld8mb` (R248). -/
  | mld8mb (md : MIdx) (rs1 : XIdx)
  /-- `mld8mh` (R249). -/
  | mld8mh (md : MIdx) (rs1 : XIdx)
  /-- `mld8mw` (R250). -/
  | mld8mw (md : MIdx) (rs1 : XIdx)
  /-- `mld8md` (R251). -/
  | mld8md (md : MIdx) (rs1 : XIdx)
  /-- `mst1mb` (R252). -/
  | mst1mb (ms3 : MIdx) (rs1 : XIdx)
  /-- `mst1mh` (R253). -/
  | mst1mh (ms3 : MIdx) (rs1 : XIdx)
  /-- `mst1mw` (R254). -/
  | mst1mw (ms3 : MIdx) (rs1 : XIdx)
  /-- `mst1md` (R255). -/
  | mst1md (ms3 : MIdx) (rs1 : XIdx)
  /-- `mst2mb` (R256). -/
  | mst2mb (ms3 : MIdx) (rs1 : XIdx)
  /-- `mst2mh` (R257). -/
  | mst2mh (ms3 : MIdx) (rs1 : XIdx)
  /-- `mst2mw` (R258). -/
  | mst2mw (ms3 : MIdx) (rs1 : XIdx)
  /-- `mst2md` (R259). -/
  | mst2md (ms3 : MIdx) (rs1 : XIdx)
  /-- `mst4mb` (R260). -/
  | mst4mb (ms3 : MIdx) (rs1 : XIdx)
  /-- `mst4mh` (R261). -/
  | mst4mh (ms3 : MIdx) (rs1 : XIdx)
  /-- `mst4mw` (R262). -/
  | mst4mw (ms3 : MIdx) (rs1 : XIdx)
  /-- `mst4md` (R263). -/
  | mst4md (ms3 : MIdx) (rs1 : XIdx)
  /-- `mst8mb` (R264). -/
  | mst8mb (ms3 : MIdx) (rs1 : XIdx)
  /-- `mst8mh` (R265). -/
  | mst8mh (ms3 : MIdx) (rs1 : XIdx)
  /-- `mst8mw` (R266). -/
  | mst8mw (ms3 : MIdx) (rs1 : XIdx)
  /-- `mst8md` (R267). -/
  | mst8md (ms3 : MIdx) (rs1 : XIdx)
  /-- `mcfgki` (R295). -/
  | mcfgki (uimm7 : BitVec 7)
  /-- `mcfgmi` (R296). -/
  | mcfgmi (uimm7 : BitVec 7)
  /-- `mcfgni` (R297). -/
  | mcfgni (uimm7 : BitVec 7)
  /-- `mcfgk` (R298). -/
  | mcfgk (rs1 : XIdx)
  /-- `mcfgm` (R299). -/
  | mcfgm (rs1 : XIdx)
  /-- `mcfgn` (R300). -/
  | mcfgn (rs1 : XIdx)
  /-- `mcfg` (R301). -/
  | mcfg (rs1 : XIdx)
deriving DecidableEq, Repr

/-- What a CSR instruction does with its source operand (47_host_interface.md R404). -/
inductive CsrOp where
  | write | set | clear
deriving DecidableEq, Repr

/-- The host instructions of 47_host_interface.md R404, R408, R409, 60_exceptions.md R433 and
20_memory.md R92, R94. -/
inductive HostInstr where
  /-- `addi rd, rs1, imm12` (R409). -/
  | addi (rd rs1 : XIdx) (imm : BitVec 12)
  /-- `lui rd, imm20` (R409). -/
  | lui (rd : XIdx) (imm : BitVec 20)
  /-- `bne rs1, rs2, off`, `off` in halfwords (R409). -/
  | bne (rs1 rs2 : XIdx) (off : BitVec 12)
  /-- `csrrw`, `csrrs`, `csrrc` with a register operand, and with `imm` the forms `csrrwi`, `csrrsi`,
  `csrrci`, whose operand is the field itself (R404). -/
  | csr (op : CsrOp) (imm : Bool) (rd : XIdx) (addr : BitVec 12) (src : XIdx)
  /-- `MRET` (R433). -/
  | mret
  /-- `SRET` (R433). -/
  | sret
  /-- `FENCE` (R92). -/
  | fence
  /-- `FENCE.I` (R94). -/
  | fenceI
  /-- `ECALL` (R408). -/
  | ecall
  /-- `EBREAK` (R408). -/
  | ebreak
  /-- `WFI` (R408). -/
  | wfi
  /-- `SFENCE.VMA` (R408); its two operands name what a host with translation forgets. -/
  | sfenceVma (rs1 rs2 : XIdx)
deriving DecidableEq, Repr

end Sys2Proof
end

