-- ==== Sys2Proof/WellFormed.lean ====
section
/-! DEFINITION. The checks on an instruction's operand fields that need no state: the first register
of a pair is even, a whole-register transfer starts at a multiple of its register count, and no
destination of a matrix multiplication is a multiplicand (the constraints of spec/opcode_table.json,
30_encoding.md R127, R133). -/

namespace Sys2Proof

/-- A register number that may start a pair (10_state.md R34). -/
def pairOk (r : MIdx) : Bool := r.toNat % 2 == 0

/-- A register number that may start a transfer of `n` registers (42_load_store.md R215). -/
def groupOk (n : Nat) (r : MIdx) : Bool := r.toNat % n == 0

/-- No register of the first list stands in the second (30_encoding.md R133). -/
def disjointRegs (dests sources : List MIdx) : Bool := dests.all fun d => !sources.contains d

/-- Single destination, single multiplicands. -/
def matmulOk (md ms2 ms1 : MIdx) : Bool := disjointRegs [md] [ms1, ms2]

/-- Destination pair `md`, `md+1` (40_matmul_float.md R152, 41_matmul_int.md R183). -/
def matmulPairOk (md ms2 ms1 : MIdx) : Bool :=
  pairOk md && disjointRegs [md, md + 1#3] [ms1, ms2]

/-- Operand B in the pair `ms2`, `ms2+1` (40_matmul_float.md R152). -/
def matmulBPairOk (md ms2 ms1 : MIdx) : Bool :=
  pairOk ms2 && disjointRegs [md] [ms1, ms2, ms2 + 1#3]

/-- The static operand constraints of an instruction. -/
def Instr.wellFormed : Instr → Bool
  | .mmovMm _ _ => true
  | .mmovMvX _ _ _ => true
  | .mmovMvI _ _ _ => true
  | .mmovMx _ _ => true
  | .fmmaccH md ms2 ms1 => matmulBPairOk md ms2 ms1
  | .fmmaccS md ms2 ms1 => matmulOk md ms2 ms1
  | .fmmaccD md ms2 ms1 => matmulPairOk md ms2 ms1
  | .fwmmaccH md ms2 ms1 => matmulOk md ms2 ms1
  | .fwmmaccS md ms2 ms1 => matmulPairOk md ms2 ms1
  | .mmaqaB md ms2 ms1 => matmulOk md ms2 ms1
  | .mmaqauB md ms2 ms1 => matmulOk md ms2 ms1
  | .mmaqausB md ms2 ms1 => matmulOk md ms2 ms1
  | .mmaqasuB md ms2 ms1 => matmulOk md ms2 ms1
  | .mmaqaH md ms2 ms1 => matmulPairOk md ms2 ms1
  | .mmaqauH md ms2 ms1 => matmulPairOk md ms2 ms1
  | .mmaqausH md ms2 ms1 => matmulPairOk md ms2 ms1
  | .mmaqasuH md ms2 ms1 => matmulPairOk md ms2 ms1
  | .pmmaqaB md ms2 ms1 => matmulOk md ms2 ms1
  | .pmmaqauB md ms2 ms1 => matmulOk md ms2 ms1
  | .pmmaqausB md ms2 ms1 => matmulOk md ms2 ms1
  | .pmmaqasuB md ms2 ms1 => matmulOk md ms2 ms1
  | .maddSMm _ _ _ => true
  | .maddSMvX _ _ _ _ => true
  | .maddSMvI _ _ _ _ => true
  | .maddSMx _ _ _ => true
  | .maddDMm _ _ _ => true
  | .maddDMvX _ _ _ _ => true
  | .maddDMvI _ _ _ _ => true
  | .maddDMx _ _ _ => true
  | .msubSMm _ _ _ => true
  | .msubSMvX _ _ _ _ => true
  | .msubSMvI _ _ _ _ => true
  | .msubSMx _ _ _ => true
  | .msubDMm _ _ _ => true
  | .msubDMvX _ _ _ _ => true
  | .msubDMvI _ _ _ _ => true
  | .msubDMx _ _ _ => true
  | .mmulSMm _ _ _ => true
  | .mmulSMvX _ _ _ _ => true
  | .mmulSMvI _ _ _ _ => true
  | .mmulSMx _ _ _ => true
  | .mmulDMm _ _ _ => true
  | .mmulDMvX _ _ _ _ => true
  | .mmulDMvI _ _ _ _ => true
  | .mmulDMx _ _ _ => true
  | .mmulhSMm _ _ _ => true
  | .mmulhSMvX _ _ _ _ => true
  | .mmulhSMvI _ _ _ _ => true
  | .mmulhSMx _ _ _ => true
  | .mmulhDMm _ _ _ => true
  | .mmulhDMvX _ _ _ _ => true
  | .mmulhDMvI _ _ _ _ => true
  | .mmulhDMx _ _ _ => true
  | .msraSMm _ _ _ => true
  | .msraSMvX _ _ _ _ => true
  | .msraSMvI _ _ _ _ => true
  | .msraSMx _ _ _ => true
  | .msraDMm _ _ _ => true
  | .msraDMvX _ _ _ _ => true
  | .msraDMvI _ _ _ _ => true
  | .msraDMx _ _ _ => true
  | .mn4clipSMm _ _ _ => true
  | .mn4clipSMvX _ _ _ _ => true
  | .mn4clipSMvI _ _ _ _ => true
  | .mn4clipSMx _ _ _ => true
  | .mn4clipDMm _ _ _ => true
  | .mn4clipDMvX _ _ _ _ => true
  | .mn4clipDMvI _ _ _ _ => true
  | .mn4clipDMx _ _ _ => true
  | .mn4clipuSMm _ _ _ => true
  | .mn4clipuSMvX _ _ _ _ => true
  | .mn4clipuSMvI _ _ _ _ => true
  | .mn4clipuSMx _ _ _ => true
  | .mn4clipuDMm _ _ _ => true
  | .mn4clipuDMvX _ _ _ _ => true
  | .mn4clipuDMvI _ _ _ _ => true
  | .mn4clipuDMx _ _ _ => true
  | .mldb _ _ _ => true
  | .mldh _ _ _ => true
  | .mldw _ _ _ => true
  | .mldd _ _ _ => true
  | .mstb _ _ _ => true
  | .msth _ _ _ => true
  | .mstw _ _ _ => true
  | .mstd _ _ _ => true
  | .msldb _ _ _ => true
  | .msldh _ _ _ => true
  | .msldw _ _ _ => true
  | .msldd _ _ _ => true
  | .msstb _ _ _ => true
  | .mssth _ _ _ => true
  | .msstw _ _ _ => true
  | .msstd _ _ _ => true
  | .mld1mb md _ => groupOk 1 md
  | .mld1mh md _ => groupOk 1 md
  | .mld1mw md _ => groupOk 1 md
  | .mld1md md _ => groupOk 1 md
  | .mld2mb md _ => groupOk 2 md
  | .mld2mh md _ => groupOk 2 md
  | .mld2mw md _ => groupOk 2 md
  | .mld2md md _ => groupOk 2 md
  | .mld4mb md _ => groupOk 4 md
  | .mld4mh md _ => groupOk 4 md
  | .mld4mw md _ => groupOk 4 md
  | .mld4md md _ => groupOk 4 md
  | .mld8mb md _ => groupOk 8 md
  | .mld8mh md _ => groupOk 8 md
  | .mld8mw md _ => groupOk 8 md
  | .mld8md md _ => groupOk 8 md
  | .mst1mb ms3 _ => groupOk 1 ms3
  | .mst1mh ms3 _ => groupOk 1 ms3
  | .mst1mw ms3 _ => groupOk 1 ms3
  | .mst1md ms3 _ => groupOk 1 ms3
  | .mst2mb ms3 _ => groupOk 2 ms3
  | .mst2mh ms3 _ => groupOk 2 ms3
  | .mst2mw ms3 _ => groupOk 2 ms3
  | .mst2md ms3 _ => groupOk 2 ms3
  | .mst4mb ms3 _ => groupOk 4 ms3
  | .mst4mh ms3 _ => groupOk 4 ms3
  | .mst4mw ms3 _ => groupOk 4 ms3
  | .mst4md ms3 _ => groupOk 4 ms3
  | .mst8mb ms3 _ => groupOk 8 ms3
  | .mst8mh ms3 _ => groupOk 8 ms3
  | .mst8mw ms3 _ => groupOk 8 ms3
  | .mst8md ms3 _ => groupOk 8 ms3
  | .mcfgki _ => true
  | .mcfgmi _ => true
  | .mcfgni _ => true
  | .mcfgk _ => true
  | .mcfgm _ => true
  | .mcfgn _ => true
  | .mcfg _ => true

end Sys2Proof
end

