-- ==== Sys2Proof/Decode.lean ====
section
/-! DEFINITION. The decoder, which is total and refuses by name, and after it the encoder, both
written from the encoding tables of 30_encoding.md (R110 to R127). Then the decoder of the host
instructions of 47_host_interface.md. -/

namespace Sys2Proof

/-- Why a word is no matrix instruction. -/
inductive DecodeError where
  /-- Fewer than the four bytes of a matrix instruction (R110). -/
  | short
  /-- Another major opcode, or `func3 != 000`: the host's business (R110, R127 last row). -/
  | notMatrix
  /-- A reserved encoding of the matrix opcode space (R127). -/
  | reserved (why : Reserved)
deriving DecidableEq, Repr

/-- custom-1, the major opcode (R110, decision D3). -/
def majorOpcode : BitVec 7 := 0b0101011#7

/-- Moves: `func = 0000` (R121, R126). -/
def decodeMove (uop : BitVec 3) (b24 : BitVec 1) (ms2 ms1 r : BitVec 3) (size : BitVec 2)
    (md : MIdx) : Except DecodeError Instr :=
  if b24 ≠ 0#1 ∨ ms2 ≠ 0#3 ∨ size ≠ 0#2 then .error (.reserved .constantField)
  else
    match uop.toNat with
    | 0 => if r = 1#3 then .ok (.mmovMm md ms1) else .error (.reserved .constantField)
    | 1 => .ok (.mmovMvX md ms1 r)
    | 2 => .ok (.mmovMvI md ms1 r)
    | 3 => if ms1 = 0#3 then .ok (.mmovMx md r) else .error (.reserved .constantField)
    | _ => .error (.reserved .uop)

/-- Float matrix multiplications: `func = 0001`, where bit 24 selects the widening form
(R115, R121). -/
def decodeFloat (uop : BitVec 3) (b24 : BitVec 1) (ms2 ms1 r : BitVec 3) (size : BitVec 2)
    (md : MIdx) : Except DecodeError Instr :=
  if uop ≠ 0#3 then .error (.reserved .func)
  else
    match b24.toNat, size.toNat with
    | 0, 1 => unused (.fmmaccH md ms2 ms1)
    | 0, 2 => unused (.fmmaccS md ms2 ms1)
    | 0, 3 => unused (.fmmaccD md ms2 ms1)
    | 1, 1 => unused (.fwmmaccH md ms2 ms1)
    | 1, 2 => unused (.fwmmaccS md ms2 ms1)
    | _, _ => .error (.reserved .floatWidth)
where
  unused (i : Instr) : Except DecodeError Instr :=
    if r = 0#3 then .ok i else .error (.reserved .constantField)

/-- Integer matrix multiplications: `func = 0010`, where bit 24 selects the int4 form and
`inst[17:15]` the signedness (R115, R119, R121). -/
def decodeInt (uop : BitVec 3) (b24 : BitVec 1) (ms2 ms1 r : BitVec 3) (size : BitVec 2)
    (md : MIdx) : Except DecodeError Instr :=
  if uop ≠ 0#3 then .error (.reserved .func)
  else
    match b24.toNat, size.toNat with
    | 0, 0 => bySign (.mmaqaB md ms2 ms1) (.mmaqauB md ms2 ms1) (.mmaqausB md ms2 ms1) (.mmaqasuB md ms2 ms1)
    | 0, 1 => bySign (.mmaqaH md ms2 ms1) (.mmaqauH md ms2 ms1) (.mmaqausH md ms2 ms1) (.mmaqasuH md ms2 ms1)
    | 1, 0 => bySign (.pmmaqaB md ms2 ms1) (.pmmaqauB md ms2 ms1) (.pmmaqausB md ms2 ms1) (.pmmaqasuB md ms2 ms1)
    | _, _ => .error (.reserved .intWidth)
where
  bySign (ss uu us su : Instr) : Except DecodeError Instr :=
    match r.toNat with
    | 0 => .ok ss
    | 1 => .ok uu
    | 2 => .ok us
    | 3 => .ok su
    | _ => .error (.reserved .intSubOp)

/-- Pointwise instructions (R122). -/
def decodePointwise (func : BitVec 4) (uop : BitVec 3) (b24 : BitVec 1) (ms2 ms1 r : BitVec 3)
    (size : BitVec 2) (md : MIdx) : Except DecodeError Instr :=
  if b24 ≠ 0#1 then .error (.reserved .pointwiseWidth)
  else
  match func.toNat, size.toNat with
  | 3, 2 => form .maddSMm .maddSMvX .maddSMvI .maddSMx
  | 3, 3 => form .maddDMm .maddDMvX .maddDMvI .maddDMx
  | 4, 2 => form .msubSMm .msubSMvX .msubSMvI .msubSMx
  | 4, 3 => form .msubDMm .msubDMvX .msubDMvI .msubDMx
  | 5, 2 => form .msraSMm .msraSMvX .msraSMvI .msraSMx
  | 5, 3 => form .msraDMm .msraDMvX .msraDMvI .msraDMx
  | 6, 2 => form .mn4clipSMm .mn4clipSMvX .mn4clipSMvI .mn4clipSMx
  | 6, 3 => form .mn4clipDMm .mn4clipDMvX .mn4clipDMvI .mn4clipDMx
  | 7, 2 => form .mn4clipuSMm .mn4clipuSMvX .mn4clipuSMvI .mn4clipuSMx
  | 7, 3 => form .mn4clipuDMm .mn4clipuDMvX .mn4clipuDMvI .mn4clipuDMx
  | 8, 2 => form .mmulSMm .mmulSMvX .mmulSMvI .mmulSMx
  | 8, 3 => form .mmulDMm .mmulDMvX .mmulDMvI .mmulDMx
  | 9, 2 => form .mmulhSMm .mmulhSMvX .mmulhSMvI .mmulhSMx
  | 9, 3 => form .mmulhDMm .mmulhDMvX .mmulhDMvI .mmulhDMx
  | _, _ => .error (.reserved .pointwiseWidth)
where
  form (mm : MIdx → MIdx → MIdx → Instr) (mvx mvi : MIdx → MIdx → MIdx → BitVec 3 → Instr)
      (mx : MIdx → MIdx → XcIdx → Instr) : Except DecodeError Instr :=
    match uop.toNat with
    | 0 => if r = 0#3 then .ok (mm md ms2 ms1) else .error (.reserved .constantField)
    | 1 => .ok (mvx md ms2 ms1 r)
    | 2 => .ok (mvi md ms2 ms1 r)
    | 3 => if ms1 = 0#3 then .ok (mx md ms2 r) else .error (.reserved .constantField)
    | _ => .error (.reserved .uop)

/-- The arithmetic format, by `func` (R111, R116). -/
def decodeArith (func : BitVec 4) (uop : BitVec 3) (b24 : BitVec 1) (ms2 ms1 r : BitVec 3)
    (size : BitVec 2) (md : MIdx) : Except DecodeError Instr :=
  match func.toNat with
  | 0 => decodeMove uop b24 ms2 ms1 r size md
  | 1 => decodeFloat uop b24 ms2 ms1 r size md
  | 2 => decodeInt uop b24 ms2 ms1 r size md
  | 3 | 4 | 5 | 6 | 7 | 8 | 9 => decodePointwise func uop b24 ms2 ms1 r size md
  | _ => .error (.reserved .func)

/-- The element width that `size` selects: byte, halfword, word, doubleword (R115). -/
def bySize (size : BitVec 2) (b h w d : Instr) : Instr :=
  match size.toNat with
  | 0 => b
  | 1 => h
  | 2 => w
  | _ => d

/-- Loads: `uop = 100` (30_encoding.md R116, R118, R123). -/
def decodeLoad (func : BitVec 4) (rs2 rs1 : XIdx) (size : BitVec 2) (reg : MIdx) :
    Except DecodeError Instr :=
  match func.toNat with
  | 0 => .ok (bySize size (.mldb reg rs2 rs1) (.mldh reg rs2 rs1) (.mldw reg rs2 rs1) (.mldd reg rs2 rs1))
  | 1 => .ok (bySize size (.msldb reg rs2 rs1) (.msldh reg rs2 rs1) (.msldw reg rs2 rs1) (.msldd reg rs2 rs1))
  | 2 =>
    if rs2.extractLsb' 3 2 ≠ 0#2 then .error (.reserved .wholeRs2)
    else
      match (rs2.extractLsb' 0 3).toNat with
      | 0 => .ok (bySize size (.mld1mb reg rs1) (.mld1mh reg rs1) (.mld1mw reg rs1) (.mld1md reg rs1))
      | 1 => .ok (bySize size (.mld2mb reg rs1) (.mld2mh reg rs1) (.mld2mw reg rs1) (.mld2md reg rs1))
      | 3 => .ok (bySize size (.mld4mb reg rs1) (.mld4mh reg rs1) (.mld4mw reg rs1) (.mld4md reg rs1))
      | 7 => .ok (bySize size (.mld8mb reg rs1) (.mld8mh reg rs1) (.mld8mw reg rs1) (.mld8md reg rs1))
      | _ => .error (.reserved .nf)
  | _ => .error (.reserved .func)

/-- Stores: `uop = 101` (30_encoding.md R116, R118, R123). -/
def decodeStore (func : BitVec 4) (rs2 rs1 : XIdx) (size : BitVec 2) (reg : MIdx) :
    Except DecodeError Instr :=
  match func.toNat with
  | 0 => .ok (bySize size (.mstb reg rs2 rs1) (.msth reg rs2 rs1) (.mstw reg rs2 rs1) (.mstd reg rs2 rs1))
  | 1 => .ok (bySize size (.msstb reg rs2 rs1) (.mssth reg rs2 rs1) (.msstw reg rs2 rs1) (.msstd reg rs2 rs1))
  | 2 =>
    if rs2.extractLsb' 3 2 ≠ 0#2 then .error (.reserved .wholeRs2)
    else
      match (rs2.extractLsb' 0 3).toNat with
      | 0 => .ok (bySize size (.mst1mb reg rs1) (.mst1mh reg rs1) (.mst1mw reg rs1) (.mst1md reg rs1))
      | 1 => .ok (bySize size (.mst2mb reg rs1) (.mst2mh reg rs1) (.mst2mw reg rs1) (.mst2md reg rs1))
      | 3 => .ok (bySize size (.mst4mb reg rs1) (.mst4mh reg rs1) (.mst4mw reg rs1) (.mst4md reg rs1))
      | 7 => .ok (bySize size (.mst8mb reg rs1) (.mst8mh reg rs1) (.mst8mw reg rs1) (.mst8md reg rs1))
      | _ => .error (.reserved .nf)
  | _ => .error (.reserved .func)

/-- Configuration instructions: `uop = 111` (R113, R118, R124). -/
def decodeConfig (reg : BitVec 1) (index : BitVec 3) (hi lo : BitVec 5) (rd : BitVec 5) :
    Except DecodeError Instr :=
  if rd ≠ 0#5 then .error (.reserved .cfgRd)
  else if reg = 0#1 then
    if lo.extractLsb' 0 3 ≠ 0#3 then .error (.reserved .constantField)
    else
      let uimm7 : BitVec 7 := hi ++ lo.extractLsb' 3 2
      match index.toNat with
      | 0 => .ok (.mcfgki uimm7)
      | 1 => .ok (.mcfgmi uimm7)
      | 2 => .ok (.mcfgni uimm7)
      | _ => .error (.reserved .cfgIndex)
  else if hi ≠ 0#5 then .error (.reserved .constantField)
  else
    match index.toNat with
    | 0 => .ok (.mcfgk lo)
    | 1 => .ok (.mcfgm lo)
    | 2 => .ok (.mcfgn lo)
    | 7 => .ok (.mcfg lo)
    | _ => .error (.reserved .cfgIndex)

/-- The decoder of one 32-bit word (R110 to R127). -/
def decode (w : BitVec 32) : Except DecodeError Instr :=
  if w.extractLsb' 0 7 ≠ majorOpcode ∨ w.extractLsb' 12 3 ≠ 0#3 then .error .notMatrix
  else
    let func := w.extractLsb' 28 4
    let uop := w.extractLsb' 25 3
    let size := w.extractLsb' 10 2
    let md := w.extractLsb' 7 3
    match uop.toNat with
    | 0 | 1 | 2 | 3 =>
      decodeArith func uop (w.extractLsb' 24 1) (w.extractLsb' 21 3) (w.extractLsb' 18 3)
        (w.extractLsb' 15 3) size md
    | 4 => decodeLoad func (w.extractLsb' 20 5) (w.extractLsb' 15 5) size md
    | 5 => decodeStore func (w.extractLsb' 20 5) (w.extractLsb' 15 5) size md
    | 7 =>
      decodeConfig (w.extractLsb' 31 1) (w.extractLsb' 28 3) (w.extractLsb' 20 5)
        (w.extractLsb' 15 5) (w.extractLsb' 7 5)
    | _ => .error (.reserved .uop)

/-- The 32-bit word held in four bytes, the first byte the least significant
(20_memory.md R82). -/
def wordOfBytes (b0 b1 b2 b3 : Byte) : BitVec 32 := b3 ++ b2 ++ b1 ++ b0

/-- The decoder on bytes as they lie in memory: the instruction and the bytes after it. -/
def decodeBytes : List Byte → Except DecodeError (Instr × List Byte)
  | b0 :: b1 :: b2 :: b3 :: rest =>
    match decode (wordOfBytes b0 b1 b2 b3) with
    | .ok i => .ok (i, rest)
    | .error e => .error e
  | _ => .error .short

/-- Byte `k` of an instruction whose bits are `w`. -/
def tableByte (w k : Nat) : Byte := BitVec.ofNat 8 (w >>> (8 * k))

/-- The instruction that the decoder reads from the bits `w` of a table row of `nbits` bits, every
bit above them 0. -/
def decodeTableWord (nbits w : Nat) : Option Instr :=
  let v := w % 2 ^ nbits
  match decodeBytes [tableByte v 0, tableByte v 1, tableByte v 2, tableByte v 3] with
  | .ok (i, _) => some i
  | .error _ => none

/-! ### The encoder -/

/-- A word in the arithmetic format (R111). -/
def arithWord (func : BitVec 4) (uop : BitVec 3) (b24 : BitVec 1) (ms2 ms1 r : BitVec 3)
    (size : BitVec 2) (md : MIdx) : BitVec 32 :=
  func ++ uop ++ b24 ++ ms2 ++ ms1 ++ r ++ 0#3 ++ size ++ md ++ majorOpcode

/-- A word in the load/store format (R112). -/
def memWord (func : BitVec 4) (uop : BitVec 3) (rs2 rs1 : XIdx) (size : BitVec 2) (reg : MIdx) :
    BitVec 32 :=
  func ++ uop ++ rs2 ++ rs1 ++ 0#3 ++ size ++ reg ++ majorOpcode

/-- A word in the immediate configuration format, `rd = 00000` (R113, R117). -/
def cfgImmWord (index : BitVec 3) (uimm7 : BitVec 7) : BitVec 32 :=
  0#1 ++ index ++ 7#3 ++ uimm7 ++ 0#3 ++ 0#3 ++ 0#5 ++ majorOpcode

/-- A word in the register configuration format, `rd = 00000` (R113, R117). -/
def cfgRegWord (index : BitVec 3) (rs1 : XIdx) : BitVec 32 :=
  1#1 ++ index ++ 7#3 ++ 0#5 ++ rs1 ++ 0#3 ++ 0#5 ++ majorOpcode

/-- The word of an instruction (R121 to R124). -/
def encode : Instr → BitVec 32
  | .mmovMm md ms1 => arithWord 0#4 0#3 0#1 0#3 ms1 1#3 0#2 md
  | .mmovMvX md ms1 rs1 => arithWord 0#4 1#3 0#1 0#3 ms1 rs1 0#2 md
  | .mmovMvI md ms1 uimm3 => arithWord 0#4 2#3 0#1 0#3 ms1 uimm3 0#2 md
  | .mmovMx md rs1 => arithWord 0#4 3#3 0#1 0#3 0#3 rs1 0#2 md
  | .fmmaccH md ms2 ms1 => arithWord 1#4 0#3 0#1 ms2 ms1 0#3 1#2 md
  | .fmmaccS md ms2 ms1 => arithWord 1#4 0#3 0#1 ms2 ms1 0#3 2#2 md
  | .fmmaccD md ms2 ms1 => arithWord 1#4 0#3 0#1 ms2 ms1 0#3 3#2 md
  | .fwmmaccH md ms2 ms1 => arithWord 1#4 0#3 1#1 ms2 ms1 0#3 1#2 md
  | .fwmmaccS md ms2 ms1 => arithWord 1#4 0#3 1#1 ms2 ms1 0#3 2#2 md
  | .mmaqaB md ms2 ms1 => arithWord 2#4 0#3 0#1 ms2 ms1 0#3 0#2 md
  | .mmaqauB md ms2 ms1 => arithWord 2#4 0#3 0#1 ms2 ms1 1#3 0#2 md
  | .mmaqausB md ms2 ms1 => arithWord 2#4 0#3 0#1 ms2 ms1 2#3 0#2 md
  | .mmaqasuB md ms2 ms1 => arithWord 2#4 0#3 0#1 ms2 ms1 3#3 0#2 md
  | .mmaqaH md ms2 ms1 => arithWord 2#4 0#3 0#1 ms2 ms1 0#3 1#2 md
  | .mmaqauH md ms2 ms1 => arithWord 2#4 0#3 0#1 ms2 ms1 1#3 1#2 md
  | .mmaqausH md ms2 ms1 => arithWord 2#4 0#3 0#1 ms2 ms1 2#3 1#2 md
  | .mmaqasuH md ms2 ms1 => arithWord 2#4 0#3 0#1 ms2 ms1 3#3 1#2 md
  | .pmmaqaB md ms2 ms1 => arithWord 2#4 0#3 1#1 ms2 ms1 0#3 0#2 md
  | .pmmaqauB md ms2 ms1 => arithWord 2#4 0#3 1#1 ms2 ms1 1#3 0#2 md
  | .pmmaqausB md ms2 ms1 => arithWord 2#4 0#3 1#1 ms2 ms1 2#3 0#2 md
  | .pmmaqasuB md ms2 ms1 => arithWord 2#4 0#3 1#1 ms2 ms1 3#3 0#2 md
  | .maddSMm md ms2 ms1 => arithWord 3#4 0#3 0#1 ms2 ms1 0#3 2#2 md
  | .maddSMvX md ms2 ms1 rs1 => arithWord 3#4 1#3 0#1 ms2 ms1 rs1 2#2 md
  | .maddSMvI md ms2 ms1 uimm3 => arithWord 3#4 2#3 0#1 ms2 ms1 uimm3 2#2 md
  | .maddSMx md ms2 rs1 => arithWord 3#4 3#3 0#1 ms2 0#3 rs1 2#2 md
  | .maddDMm md ms2 ms1 => arithWord 3#4 0#3 0#1 ms2 ms1 0#3 3#2 md
  | .maddDMvX md ms2 ms1 rs1 => arithWord 3#4 1#3 0#1 ms2 ms1 rs1 3#2 md
  | .maddDMvI md ms2 ms1 uimm3 => arithWord 3#4 2#3 0#1 ms2 ms1 uimm3 3#2 md
  | .maddDMx md ms2 rs1 => arithWord 3#4 3#3 0#1 ms2 0#3 rs1 3#2 md
  | .msubSMm md ms2 ms1 => arithWord 4#4 0#3 0#1 ms2 ms1 0#3 2#2 md
  | .msubSMvX md ms2 ms1 rs1 => arithWord 4#4 1#3 0#1 ms2 ms1 rs1 2#2 md
  | .msubSMvI md ms2 ms1 uimm3 => arithWord 4#4 2#3 0#1 ms2 ms1 uimm3 2#2 md
  | .msubSMx md ms2 rs1 => arithWord 4#4 3#3 0#1 ms2 0#3 rs1 2#2 md
  | .msubDMm md ms2 ms1 => arithWord 4#4 0#3 0#1 ms2 ms1 0#3 3#2 md
  | .msubDMvX md ms2 ms1 rs1 => arithWord 4#4 1#3 0#1 ms2 ms1 rs1 3#2 md
  | .msubDMvI md ms2 ms1 uimm3 => arithWord 4#4 2#3 0#1 ms2 ms1 uimm3 3#2 md
  | .msubDMx md ms2 rs1 => arithWord 4#4 3#3 0#1 ms2 0#3 rs1 3#2 md
  | .mmulSMm md ms2 ms1 => arithWord 8#4 0#3 0#1 ms2 ms1 0#3 2#2 md
  | .mmulSMvX md ms2 ms1 rs1 => arithWord 8#4 1#3 0#1 ms2 ms1 rs1 2#2 md
  | .mmulSMvI md ms2 ms1 uimm3 => arithWord 8#4 2#3 0#1 ms2 ms1 uimm3 2#2 md
  | .mmulSMx md ms2 rs1 => arithWord 8#4 3#3 0#1 ms2 0#3 rs1 2#2 md
  | .mmulDMm md ms2 ms1 => arithWord 8#4 0#3 0#1 ms2 ms1 0#3 3#2 md
  | .mmulDMvX md ms2 ms1 rs1 => arithWord 8#4 1#3 0#1 ms2 ms1 rs1 3#2 md
  | .mmulDMvI md ms2 ms1 uimm3 => arithWord 8#4 2#3 0#1 ms2 ms1 uimm3 3#2 md
  | .mmulDMx md ms2 rs1 => arithWord 8#4 3#3 0#1 ms2 0#3 rs1 3#2 md
  | .mmulhSMm md ms2 ms1 => arithWord 9#4 0#3 0#1 ms2 ms1 0#3 2#2 md
  | .mmulhSMvX md ms2 ms1 rs1 => arithWord 9#4 1#3 0#1 ms2 ms1 rs1 2#2 md
  | .mmulhSMvI md ms2 ms1 uimm3 => arithWord 9#4 2#3 0#1 ms2 ms1 uimm3 2#2 md
  | .mmulhSMx md ms2 rs1 => arithWord 9#4 3#3 0#1 ms2 0#3 rs1 2#2 md
  | .mmulhDMm md ms2 ms1 => arithWord 9#4 0#3 0#1 ms2 ms1 0#3 3#2 md
  | .mmulhDMvX md ms2 ms1 rs1 => arithWord 9#4 1#3 0#1 ms2 ms1 rs1 3#2 md
  | .mmulhDMvI md ms2 ms1 uimm3 => arithWord 9#4 2#3 0#1 ms2 ms1 uimm3 3#2 md
  | .mmulhDMx md ms2 rs1 => arithWord 9#4 3#3 0#1 ms2 0#3 rs1 3#2 md
  | .msraSMm md ms2 ms1 => arithWord 5#4 0#3 0#1 ms2 ms1 0#3 2#2 md
  | .msraSMvX md ms2 ms1 rs1 => arithWord 5#4 1#3 0#1 ms2 ms1 rs1 2#2 md
  | .msraSMvI md ms2 ms1 uimm3 => arithWord 5#4 2#3 0#1 ms2 ms1 uimm3 2#2 md
  | .msraSMx md ms2 rs1 => arithWord 5#4 3#3 0#1 ms2 0#3 rs1 2#2 md
  | .msraDMm md ms2 ms1 => arithWord 5#4 0#3 0#1 ms2 ms1 0#3 3#2 md
  | .msraDMvX md ms2 ms1 rs1 => arithWord 5#4 1#3 0#1 ms2 ms1 rs1 3#2 md
  | .msraDMvI md ms2 ms1 uimm3 => arithWord 5#4 2#3 0#1 ms2 ms1 uimm3 3#2 md
  | .msraDMx md ms2 rs1 => arithWord 5#4 3#3 0#1 ms2 0#3 rs1 3#2 md
  | .mn4clipSMm md ms2 ms1 => arithWord 6#4 0#3 0#1 ms2 ms1 0#3 2#2 md
  | .mn4clipSMvX md ms2 ms1 rs1 => arithWord 6#4 1#3 0#1 ms2 ms1 rs1 2#2 md
  | .mn4clipSMvI md ms2 ms1 uimm3 => arithWord 6#4 2#3 0#1 ms2 ms1 uimm3 2#2 md
  | .mn4clipSMx md ms2 rs1 => arithWord 6#4 3#3 0#1 ms2 0#3 rs1 2#2 md
  | .mn4clipDMm md ms2 ms1 => arithWord 6#4 0#3 0#1 ms2 ms1 0#3 3#2 md
  | .mn4clipDMvX md ms2 ms1 rs1 => arithWord 6#4 1#3 0#1 ms2 ms1 rs1 3#2 md
  | .mn4clipDMvI md ms2 ms1 uimm3 => arithWord 6#4 2#3 0#1 ms2 ms1 uimm3 3#2 md
  | .mn4clipDMx md ms2 rs1 => arithWord 6#4 3#3 0#1 ms2 0#3 rs1 3#2 md
  | .mn4clipuSMm md ms2 ms1 => arithWord 7#4 0#3 0#1 ms2 ms1 0#3 2#2 md
  | .mn4clipuSMvX md ms2 ms1 rs1 => arithWord 7#4 1#3 0#1 ms2 ms1 rs1 2#2 md
  | .mn4clipuSMvI md ms2 ms1 uimm3 => arithWord 7#4 2#3 0#1 ms2 ms1 uimm3 2#2 md
  | .mn4clipuSMx md ms2 rs1 => arithWord 7#4 3#3 0#1 ms2 0#3 rs1 2#2 md
  | .mn4clipuDMm md ms2 ms1 => arithWord 7#4 0#3 0#1 ms2 ms1 0#3 3#2 md
  | .mn4clipuDMvX md ms2 ms1 rs1 => arithWord 7#4 1#3 0#1 ms2 ms1 rs1 3#2 md
  | .mn4clipuDMvI md ms2 ms1 uimm3 => arithWord 7#4 2#3 0#1 ms2 ms1 uimm3 3#2 md
  | .mn4clipuDMx md ms2 rs1 => arithWord 7#4 3#3 0#1 ms2 0#3 rs1 3#2 md
  | .mldb md rs2 rs1 => memWord 0#4 4#3 rs2 rs1 0#2 md
  | .mldh md rs2 rs1 => memWord 0#4 4#3 rs2 rs1 1#2 md
  | .mldw md rs2 rs1 => memWord 0#4 4#3 rs2 rs1 2#2 md
  | .mldd md rs2 rs1 => memWord 0#4 4#3 rs2 rs1 3#2 md
  | .mstb ms3 rs2 rs1 => memWord 0#4 5#3 rs2 rs1 0#2 ms3
  | .msth ms3 rs2 rs1 => memWord 0#4 5#3 rs2 rs1 1#2 ms3
  | .mstw ms3 rs2 rs1 => memWord 0#4 5#3 rs2 rs1 2#2 ms3
  | .mstd ms3 rs2 rs1 => memWord 0#4 5#3 rs2 rs1 3#2 ms3
  | .msldb md rs2 rs1 => memWord 1#4 4#3 rs2 rs1 0#2 md
  | .msldh md rs2 rs1 => memWord 1#4 4#3 rs2 rs1 1#2 md
  | .msldw md rs2 rs1 => memWord 1#4 4#3 rs2 rs1 2#2 md
  | .msldd md rs2 rs1 => memWord 1#4 4#3 rs2 rs1 3#2 md
  | .msstb ms3 rs2 rs1 => memWord 1#4 5#3 rs2 rs1 0#2 ms3
  | .mssth ms3 rs2 rs1 => memWord 1#4 5#3 rs2 rs1 1#2 ms3
  | .msstw ms3 rs2 rs1 => memWord 1#4 5#3 rs2 rs1 2#2 ms3
  | .msstd ms3 rs2 rs1 => memWord 1#4 5#3 rs2 rs1 3#2 ms3
  | .mld1mb md rs1 => memWord 2#4 4#3 0#5 rs1 0#2 md
  | .mld1mh md rs1 => memWord 2#4 4#3 0#5 rs1 1#2 md
  | .mld1mw md rs1 => memWord 2#4 4#3 0#5 rs1 2#2 md
  | .mld1md md rs1 => memWord 2#4 4#3 0#5 rs1 3#2 md
  | .mld2mb md rs1 => memWord 2#4 4#3 1#5 rs1 0#2 md
  | .mld2mh md rs1 => memWord 2#4 4#3 1#5 rs1 1#2 md
  | .mld2mw md rs1 => memWord 2#4 4#3 1#5 rs1 2#2 md
  | .mld2md md rs1 => memWord 2#4 4#3 1#5 rs1 3#2 md
  | .mld4mb md rs1 => memWord 2#4 4#3 3#5 rs1 0#2 md
  | .mld4mh md rs1 => memWord 2#4 4#3 3#5 rs1 1#2 md
  | .mld4mw md rs1 => memWord 2#4 4#3 3#5 rs1 2#2 md
  | .mld4md md rs1 => memWord 2#4 4#3 3#5 rs1 3#2 md
  | .mld8mb md rs1 => memWord 2#4 4#3 7#5 rs1 0#2 md
  | .mld8mh md rs1 => memWord 2#4 4#3 7#5 rs1 1#2 md
  | .mld8mw md rs1 => memWord 2#4 4#3 7#5 rs1 2#2 md
  | .mld8md md rs1 => memWord 2#4 4#3 7#5 rs1 3#2 md
  | .mst1mb ms3 rs1 => memWord 2#4 5#3 0#5 rs1 0#2 ms3
  | .mst1mh ms3 rs1 => memWord 2#4 5#3 0#5 rs1 1#2 ms3
  | .mst1mw ms3 rs1 => memWord 2#4 5#3 0#5 rs1 2#2 ms3
  | .mst1md ms3 rs1 => memWord 2#4 5#3 0#5 rs1 3#2 ms3
  | .mst2mb ms3 rs1 => memWord 2#4 5#3 1#5 rs1 0#2 ms3
  | .mst2mh ms3 rs1 => memWord 2#4 5#3 1#5 rs1 1#2 ms3
  | .mst2mw ms3 rs1 => memWord 2#4 5#3 1#5 rs1 2#2 ms3
  | .mst2md ms3 rs1 => memWord 2#4 5#3 1#5 rs1 3#2 ms3
  | .mst4mb ms3 rs1 => memWord 2#4 5#3 3#5 rs1 0#2 ms3
  | .mst4mh ms3 rs1 => memWord 2#4 5#3 3#5 rs1 1#2 ms3
  | .mst4mw ms3 rs1 => memWord 2#4 5#3 3#5 rs1 2#2 ms3
  | .mst4md ms3 rs1 => memWord 2#4 5#3 3#5 rs1 3#2 ms3
  | .mst8mb ms3 rs1 => memWord 2#4 5#3 7#5 rs1 0#2 ms3
  | .mst8mh ms3 rs1 => memWord 2#4 5#3 7#5 rs1 1#2 ms3
  | .mst8mw ms3 rs1 => memWord 2#4 5#3 7#5 rs1 2#2 ms3
  | .mst8md ms3 rs1 => memWord 2#4 5#3 7#5 rs1 3#2 ms3
  | .mcfgki uimm7 => cfgImmWord 0#3 uimm7
  | .mcfgmi uimm7 => cfgImmWord 1#3 uimm7
  | .mcfgni uimm7 => cfgImmWord 2#3 uimm7
  | .mcfgk rs1 => cfgRegWord 0#3 rs1
  | .mcfgm rs1 => cfgRegWord 1#3 rs1
  | .mcfgn rs1 => cfgRegWord 2#3 rs1
  | .mcfg rs1 => cfgRegWord 7#3 rs1

/-! ### Host instructions -/

/-- The CSR instruction that `func3` selects (47_host_interface.md R404). -/
def decodeCsr (w : BitVec 32) : Option HostInstr :=
  let go (op : CsrOp) (imm : Bool) : Option HostInstr :=
    some (.csr op imm (w.extractLsb' 7 5) (w.extractLsb' 20 12) (w.extractLsb' 15 5))
  match (w.extractLsb' 12 3).toNat with
  | 1 => go .write false
  | 2 => go .set false
  | 3 => go .clear false
  | 5 => go .write true
  | 6 => go .set true
  | 7 => go .clear true
  | _ => none

/-- The system instructions other than the CSR instructions: `func3 = 000` under the major opcode
SYSTEM (47_host_interface.md R408, 60_exceptions.md R433). The words are the host's: PRESUMED, unsafe
(log 15). -/
def decodeSystem (w : BitVec 32) : Option HostInstr :=
  if w = 0x00000073#32 then some .ecall
  else if w = 0x00100073#32 then some .ebreak
  else if w = 0x30200073#32 then some .mret
  else if w = 0x10200073#32 then some .sret
  else if w = 0x10500073#32 then some .wfi
  else if w.extractLsb' 25 7 = 0b0001001#7 ∧ w.extractLsb' 7 5 = 0#5 then
    some (.sfenceVma (w.extractLsb' 15 5) (w.extractLsb' 20 5))
  else none

/-- The host instructions that spec/ gives a meaning to (47_host_interface.md R404, R408, R409). The
words of `FENCE` and `FENCE.I` are the base ISA's: PRESUMED, unsafe (log 15). -/
def decodeHost (w : BitVec 32) : Option HostInstr :=
  let f3 := (w.extractLsb' 12 3).toNat
  let rd := w.extractLsb' 7 5
  let rs1 := w.extractLsb' 15 5
  match (w.extractLsb' 0 7).toNat with
  | 0b0010011 => if f3 = 0 then some (.addi rd rs1 (w.extractLsb' 20 12)) else none
  | 0b0110111 => some (.lui rd (w.extractLsb' 12 20))
  | 0b1100011 =>
    if f3 = 1 then
      some (.bne rs1 (w.extractLsb' 20 5)
        (w.extractLsb' 31 1 ++ w.extractLsb' 7 1 ++ w.extractLsb' 25 6 ++ w.extractLsb' 8 4))
    else none
  | 0b0001111 => if f3 = 0 then some .fence else if f3 = 1 then some .fenceI else none
  | 0b1110011 =>
    if f3 = 0 then decodeSystem w else decodeCsr w
  | _ => none

end Sys2Proof
end

