-- ==== Sys2Proof/Machine/Bits.lean ====
section
/-! DEFINITION. Words of `XLEN` bits, and the view of a register row as elements
(00_scope.md R6, R7, 10_state.md R33, decisions D5 and D8). -/

namespace Sys2Proof.Machine

/-- Reduction modulo `2^XLEN` (00_scope.md R5). -/
def wrapX (l : Xlen) (w : Word) : Word :=
  match l with
  | .x64 => w
  | .x32 => (w.setWidth 32).setWidth 64

/-- The sign extension of an `XLEN`-bit value to 64 bits. -/
def signX (l : Xlen) (w : Word) : Word :=
  match l with
  | .x64 => w
  | .x32 => (w.setWidth 32).signExtend 64

/-- The low `MLEN` bits of a row (10_state.md R31). -/
def truncRow (l : Mlen) (r : Row) : Row :=
  match l with
  | .m512 => r
  | .m256 => (r.setWidth 256).setWidth 512
  | .m128 => (r.setWidth 128).setWidth 512

/-- Element `j` of width `w` of a row: bits `[w*j+w-1 : w*j]` (10_state.md R33, decision D5; for
`w = 4` the low nibble of a byte is the even element, decision D8). -/
def elem (w : Nat) (r : Row) (j : Nat) : BitVec w := r.extractLsb' (w * j) w

/-- The row whose elements are those of the list, element 0 in the low bits; the rest is zero. -/
def packRow {w : Nat} : List (BitVec w) → Row
  | [] => 0
  | e :: es => e.setWidth 512 ||| (packRow es <<< w)

/-- The register whose row `i` is `f i` (10_state.md R31). -/
def rowsOf (c : Config) (f : Nat → Row) : MReg :=
  (List.range c.rows).map fun i => truncRow c.mlen (f i)

/-- The register whose element `(i, j)` of width `w` is `f i j` in rows below `nrows` and columns
below `ncols`, every other bit zero (the tail rule, 10_state.md R48). -/
def tiled (c : Config) (nrows ncols w : Nat) (f : Nat → Nat → BitVec w) : MReg :=
  rowsOf c fun i => if i < nrows then packRow ((List.range ncols).map (f i)) else 0

/-- An integer as its element read with or without sign (00_scope.md R6). -/
def intValue (signed : Bool) {w : Nat} (v : BitVec w) : Int :=
  if signed then v.toInt else v.toNat

end Sys2Proof.Machine
end

