-- ==== Sys2Proof/Machine/State.lean ====
section
/-! DEFINITION. The state of the machine, the ways a step can stop, and the state right after reset.
Matrix state: 10_state.md R30 to R53. Host state: 10_state.md R55 to R59, 47_host_interface.md R400,
R406, 60_exceptions.md R432 to R438. -/

namespace Sys2Proof.Machine

/-- The privilege levels of the host (60_exceptions.md R437). -/
inductive Priv where
  | u | s | m
deriving DecidableEq, Repr

/-- The fields of `mstatus` that spec/ names (10_state.md R51, R56, 60_exceptions.md R432,
70_reset_and_hazards.md R460). `sstatus` is a view of the same fields. -/
structure MStatus where
  /-- `MS`: 0 Off, 1 Initial, 2 Clean, 3 Dirty (10_state.md R51). -/
  ms : BitVec 2
  /-- `FS`, with the same encoding (10_state.md R56). -/
  fs : BitVec 2
  mie : Bool
  mpie : Bool
  sie : Bool
  spie : Bool
  /-- The level before a trap to supervisor mode is S, not U. -/
  spp : Bool
  /-- The level before a trap to machine mode. -/
  mpp : Priv
  mprv : Bool
deriving DecidableEq, Repr

/-- Memory as (address, byte) pairs; the canonical form is `Memory.wf`. -/
abbrev Memory := List Host.Cell

/-- The faults. The closed inductive has no constructor: every exception the spec describes is
taken as a trap and is a next state, so no step of this model ends in a fault. -/
inductive Fault where
deriving DecidableEq, Repr

/-- The refusals. -/
inductive Refusal where
  /-- Raised by an arm of `exec` whose instruction has no meaning yet. No arm raises it. Safe. -/
  | notModelled (mnemonic : String)
  /-- Raised by a RESERVED case under `RESERVED_POLICY = refuse`, the default of the spec
  (60_exceptions.md R429, decision D20). Safe. -/
  | reserved (why : Reserved)
  /-- Raised by the fetch of a word that is neither a matrix instruction nor a host instruction
  that spec/ describes: the base ISA is out of scope (00_scope.md R3). Safe. -/
  | hostInstruction (word : BitVec 32)
  /-- Raised by a CSR instruction on a CSR the host has (`Config.hostCsrs`) and spec/ does not
  describe. Safe. -/
  | hostCsr (addr : BitVec 12)
deriving DecidableEq, Repr

/-- The state. Words of `XLEN` bits are held in 64 bits, the upper half zero on RV32. -/
structure State where
  /-- The parameters (00_scope.md R4); no step changes them. -/
  cfg : Config
  pc : Word
  /-- `x0`..`x31` (47_host_interface.md R400). -/
  x : Vector Word 32
  /-- `M0`..`M7` (10_state.md R30). -/
  m : Vector MReg 8
  /-- 10_state.md R38. -/
  xmrstart : Word
  /-- `xmxrm[1:0]` (10_state.md R40). -/
  xmxrm : BitVec 2
  /-- `xmxsat[0]` (10_state.md R42). -/
  xmxsat : Bool
  /-- `xmsize[7:0]` (10_state.md R43). -/
  sizeM : BitVec 8
  /-- `xmsize[15:8]`. -/
  sizeN : BitVec 8
  /-- `xmsize[31:16]`, in bytes. -/
  sizeK : BitVec 16
  /-- `fcsr[4:0]`: NV DZ OF UF NX (10_state.md R55). -/
  fflags : BitVec 5
  /-- `fcsr[7:5]`. -/
  frm : BitVec 3
  /-- `fcsr[FCSR_BF16_BIT]`, which exists with `HAS_BF16` (10_state.md R57). -/
  bf16 : Bool
  priv : Priv
  mstatus : MStatus
  mepc : Word
  mcause : Word
  mtval : Word
  mtvec : Word
  medeleg : Word
  mideleg : Word
  sepc : Word
  scause : Word
  stval : Word
  stvec : Word
  /-- How many instructions the hart has retired (60_exceptions.md R439). -/
  instret : BitVec 64
  mem : Memory
  /-- The model's own: bytes that stores have replaced since the last `FENCE.I` and that a fetch
  may still see (20_memory.md R94; log 11). -/
  stale : List Host.Cell
  /-- The model's own: how many free values have been drawn (log 7). -/
  draws : Nat
deriving DecidableEq, Repr

/-- A matrix register of the reset state: rows of zeros, DESIGN CHOICE, unsafe (log 2). -/
def zeroReg : MReg := List.replicate Config.standard.rows 0

/-- The state right after reset: machine mode, `MIE = 0` and `MPRV = 0` (70_reset_and_hazards.md
R460), the constants of 10_state.md R61 through the configuration. Every other value is a DESIGN
CHOICE, unsafe (logs 1 to 5). -/
def State.reset : State where
  cfg := Config.standard
  pc := 0x1000#64
  x := Vector.replicate 32 0
  m := Vector.replicate 8 zeroReg
  xmrstart := 0
  xmxrm := 0
  xmxsat := false
  sizeM := 0
  sizeN := 0
  sizeK := 0
  fflags := 0
  frm := 0
  bf16 := false
  priv := .m
  mstatus :=
    { ms := 0, fs := 0, mie := false, mpie := false, sie := false, spie := false
      spp := false, mpp := .u, mprv := false }
  mepc := 0
  mcause := 0
  mtval := 0
  mtvec := 0
  medeleg := 0
  mideleg := 0
  sepc := 0
  scause := 0
  stval := 0
  stvec := 0
  instret := 0
  mem := []
  stale := []
  draws := 0

end Sys2Proof.Machine
end

