-- ==== Sys2Proof/Machine/Memory.lean ====
section
/-! DEFINITION. The byte memory and the address map (20_memory.md R80, R84, R87 to R90). -/

namespace Sys2Proof.Machine

/-- What an address that memory does not list reads as: DESIGN CHOICE, unsafe (log 5). -/
def unlisted : Byte := 0

/-- The byte at an address. -/
def Memory.read : Memory → Nat → Byte
  | [], _ => unlisted
  | (b, v) :: rest, a => if a = b then v else Memory.read rest a

/-- The memory with one byte changed, in canonical form. -/
def Memory.write : Memory → Nat → Byte → Memory
  | [], a, v => if v = unlisted then [] else [(a, v)]
  | (b, w) :: rest, a, v =>
    if a < b then
      if v = unlisted then (b, w) :: rest else (a, v) :: (b, w) :: rest
    else if a = b then
      if v = unlisted then rest else (a, v) :: rest
    else (b, w) :: Memory.write rest a v

/-- Addresses rise from `lo` on and no listed byte equals `unlisted`. -/
def Memory.wfFrom : Nat → Memory → Bool
  | _, [] => true
  | lo, (b, v) :: rest => decide (lo ≤ b) && v != unlisted && Memory.wfFrom (b + 1) rest

/-- The canonical form of memory. -/
def Memory.wf (m : Memory) : Bool := Memory.wfFrom 0 m

/-- Every listed address lies below `n`. -/
def Memory.below (n : Nat) (m : Memory) : Bool := m.all fun c => decide (c.1 < n)

/-- The memory with several bytes changed. -/
def Memory.writeAll (m : Memory) : List Host.Cell → Memory
  | [] => m
  | (a, v) :: rest => Memory.write (Memory.writeAll m rest) a v

/-- Whether a region holds an address. -/
def inRegion (a : Nat) (r : Region) : Bool := decide (r.base ≤ a) && decide (a < r.base + r.size)

/-- What an access to an address meets: the first region that holds it decides (20_memory.md R89). -/
def accessAt (m : MemMap) (a : Nat) : Access :=
  match m.regions.find? (inRegion a) with
  | some r => r.access
  | none => m.elsewhere

/-- The map of a privilege level (20_memory.md R90). -/
def mapFor (c : Config) : Priv → MemMap
  | .m => c.memMaps.machine
  | .s => c.memMaps.supervisor
  | .u => c.memMaps.user

/-- The level at which loads and stores are checked: the current one, or `MPP` in machine mode with
`MPRV` set (70_reset_and_hazards.md R460 names the bit; its effect is the family's: PRESUMED,
unsafe, log 14). -/
def State.dataPriv (s : State) : Priv :=
  if s.mstatus.mprv && s.priv == .m then s.mstatus.mpp else s.priv

/-- What loading a byte meets. -/
def State.readReach (s : State) (a : Nat) : Reach := (accessAt (mapFor s.cfg s.dataPriv) a).read

/-- What storing a byte meets. -/
def State.writeReach (s : State) (a : Nat) : Reach := (accessAt (mapFor s.cfg s.dataPriv) a).write

/-- What fetching a byte meets. -/
def State.fetchReach (s : State) (a : Nat) : FetchReach := (accessAt (mapFor s.cfg s.priv) a).fetch

/-- The byte of memory at an address. -/
def State.byteAt (s : State) (a : Nat) : Byte := s.mem.read a

end Sys2Proof.Machine
end

