-- ==== Sys2Proof/Machine/Ops.lean ====
section
/-! DEFINITION. The named operations over registers, taking an exception and returning from one, the
checks of the prologue and the epilogue (30_encoding.md R131, R132, 60_exceptions.md R422, R432,
R433). -/

namespace Sys2Proof.Machine

/-! ### Registers -/

/-- `x[i]`, which is 0 for `i = 0` (00_scope.md R7). -/
def State.xval (s : State) (i : XIdx) : Word :=
  if i = 0#5 then 0 else wrapX s.cfg.xlen (s.x[i.toNat]'i.isLt)

/-- `xc(f) = x[8 + f]` (00_scope.md R7). -/
def State.xcval (s : State) (f : XcIdx) : Word := s.xval f.toX

/-- `x[i] <- v`; a write of `x0` is discarded (47_host_interface.md R400). -/
def State.setX (s : State) (i : XIdx) (v : Word) : State :=
  if i = 0#5 then s else { s with x := s.x.set i.toNat (wrapX s.cfg.xlen v) i.isLt }

/-- `M[r].row[i]` (00_scope.md R7). -/
def State.mrow (s : State) (r : MIdx) (i : Nat) : Row :=
  truncRow s.cfg.mlen ((s.m[r.toNat]'r.isLt).getD i 0)

/-- `E_w(r, i, j)` (00_scope.md R7). -/
def State.el (s : State) (w : Nat) (r : MIdx) (i j : Nat) : BitVec w := elem w (s.mrow r i) j

/-- `M[r] <- v`. -/
def State.setM (s : State) (r : MIdx) (v : MReg) : State :=
  { s with m := s.m.set r.toNat v r.isLt }

/-- The registers `M[md]`, `M[md+1]`, ... one after the other, as many as the list holds
(42_load_store.md R215). -/
def State.setGroup (s : State) (md : MIdx) : List MReg → State
  | [] => s
  | v :: rest => (s.setM md v).setGroup (md + 1#3) rest

/-- `sizeM`, `sizeN`, `sizeK` as numbers (00_scope.md R10). -/
def State.sM (s : State) : Nat := s.sizeM.toNat

/-- `sizeN`. -/
def State.sN (s : State) : Nat := s.sizeN.toNat

/-- `sizeK`, in bytes. -/
def State.sK (s : State) : Nat := s.sizeK.toNat

/-- `VALID_MM(w, nmax)` (10_state.md R46). -/
def State.validMM (s : State) (w nmax : Nat) : Bool :=
  decide (s.sM ≤ s.cfg.rows) && decide (s.sN ≤ nmax) && decide (s.sK ≤ s.cfg.mlenb) &&
    s.sK % max 1 (w / 8) == 0

/-- `VALID_PW(w)` (10_state.md R47). -/
def State.validPW (s : State) (w : Nat) : Bool :=
  decide (s.sM ≤ s.cfg.rows) && decide (s.sK ≤ s.cfg.mlenb) && s.sK % (w / 8) == 0

/-! ### Taking an exception and returning from one -/

/-- The synchronous exceptions (60_exceptions.md R420, R421), and those of the host's `EBREAK` and `ECALL`
(47_host_interface.md R408), the latter one for each level. -/
inductive Exc where
  | fetchMisaligned | fetchAccess | illegal | loadMisaligned | loadAccess | storeMisaligned
  | storeAccess | fetchPage | loadPage | storePage | breakpoint | ecallU | ecallS | ecallM
deriving DecidableEq, Repr

/-- The exception codes (60_exceptions.md R420, R421). Those of a breakpoint and of the environment calls
are the family's: PRESUMED, unsafe (log 32). -/
def Exc.code : Exc → Nat
  | .fetchMisaligned => 0
  | .fetchAccess => 1
  | .illegal => 2
  | .breakpoint => 3
  | .loadMisaligned => 4
  | .loadAccess => 5
  | .storeMisaligned => 6
  | .storeAccess => 7
  | .ecallU => 8
  | .ecallS => 9
  | .ecallM => 11
  | .fetchPage => 12
  | .loadPage => 13
  | .storePage => 15

/-- The cause word: the code, with the interrupt bit on top (60_exceptions.md R432). -/
def causeWord (l : Xlen) (interrupt : Bool) (code : Nat) : Word :=
  BitVec.ofNat 64 code ||| (if interrupt then 1#64 <<< (l.bits - 1) else 0)

/-- Where a trap goes: the base of the vector register, or base + 4*cause for a vectored interrupt
(60_exceptions.md R432, R435). -/
def trapPc (l : Xlen) (tvec : Word) (interrupt : Bool) (code : Nat) : Word :=
  let base := tvec &&& ~~~3#64
  if interrupt && tvec.extractLsb' 0 2 == 1#2 then wrapX l (base + BitVec.ofNat 64 (4 * code))
  else base

/-- Whether a trap is delegated to supervisor mode (60_exceptions.md R432, R435). A trap from
machine mode never is: PRESUMED, unsafe (log 16). -/
def State.delegated (s : State) (interrupt : Bool) (code : Nat) : Bool :=
  s.priv != .m && (if interrupt then s.mideleg else s.medeleg).getLsbD code

/-- Entry of a trap to machine mode (60_exceptions.md R432). -/
def State.trapToM (s : State) (interrupt : Bool) (code : Nat) (tval : Word) : State :=
  { s with
    mepc := s.pc
    mcause := causeWord s.cfg.xlen interrupt code
    mtval := tval
    mstatus := { s.mstatus with mpp := s.priv, mpie := s.mstatus.mie, mie := false }
    priv := .m
    pc := trapPc s.cfg.xlen s.mtvec interrupt code }

/-- Entry of a trap to supervisor mode (60_exceptions.md R432). -/
def State.trapToS (s : State) (interrupt : Bool) (code : Nat) (tval : Word) : State :=
  { s with
    sepc := s.pc
    scause := causeWord s.cfg.xlen interrupt code
    stval := tval
    mstatus := { s.mstatus with spp := s.priv != .u, spie := s.mstatus.sie, sie := false }
    priv := .s
    pc := trapPc s.cfg.xlen s.stvec interrupt code }

/-- Taking a trap (60_exceptions.md R432): no matrix register, no matrix CSR and not `MS` changes. -/
def State.takeTrap (s : State) (interrupt : Bool) (code : Nat) (tval : Word) : State :=
  if s.delegated interrupt code then s.trapToS interrupt code tval
  else s.trapToM interrupt code tval

/-- Taking a synchronous exception at the instruction at `pc`. -/
def State.takeException (s : State) (e : Exc) (tval : Word) : State :=
  s.takeTrap false e.code tval

/-- IllegalInstruction: the trap value is the word or 0, as the implementation chooses
(60_exceptions.md R422; log 24). -/
def State.illegal (s : State) (word : BitVec 32) : State :=
  s.takeException .illegal (if s.cfg.illegalTvalIsWord then word.setWidth 64 else 0)

/-- Return from a trap to machine mode, `MRET` (60_exceptions.md R433). What becomes of `MPIE`,
`MPP` and `MPRV` is the family's: PRESUMED, unsafe (log 16). -/
def State.returnFromM (s : State) : State :=
  { s with
    pc := s.mepc
    priv := s.mstatus.mpp
    mstatus :=
      { s.mstatus with
        mie := s.mstatus.mpie, mpie := true, mpp := .u
        mprv := s.mstatus.mprv && s.mstatus.mpp == .m } }

/-- Return from a trap to supervisor mode, `SRET` (60_exceptions.md R433). What becomes of `SPIE`,
`SPP` and `MPRV` is the family's: PRESUMED, unsafe (log 16). -/
def State.returnFromS (s : State) : State :=
  { s with
    pc := s.sepc
    priv := if s.mstatus.spp then .s else .u
    mstatus :=
      { s.mstatus with sie := s.mstatus.spie, spie := true, spp := false, mprv := false } }

/-! ### The prologue and the epilogue -/

/-- Why an instruction does not execute. -/
inductive Stop where
  | illegal
  | reserved (why : Reserved)
deriving DecidableEq, Repr

/-- IllegalInstruction is taken; a RESERVED case follows `RESERVED_POLICY`
(60_exceptions.md R422, R429). -/
def State.stop (s : State) (word : BitVec 32) : Stop → Host.Outcome State Fault Refusal
  | .illegal => .next (s.illegal word)
  | .reserved why =>
    match s.cfg.reservedPolicy with
    | .refuse => .refused (.reserved why)
    | .illegalInstruction => .next (s.illegal word)

/-- The first check that fires. -/
def firstStop : List (Bool × Stop) → Option Stop
  | [] => none
  | (hit, k) :: rest => if hit then some k else firstStop rest

/-- An instruction that goes on when no check fires; the checks stand in the order of
30_encoding.md R132. -/
def State.guard (s : State) (word : BitVec 32) (checks : List (Bool × Stop))
    (go : Host.Outcome State Fault Refusal) : Host.Outcome State Fault Refusal :=
  match firstStop checks with
  | some k => s.stop word k
  | none => go

/-- Step 2 of the prologue: `MS` is Off (60_exceptions.md R423). -/
def State.offGate (s : State) : Bool × Stop := (s.mstatus.ms == 0#2, .illegal)

/-- Step 3: a bit of `xmisa` is 0 (60_exceptions.md R424). -/
def State.featureGate (s : State) (bit : Nat) : Bool × Stop :=
  (!s.cfg.xmisa.getLsbD bit, .illegal)

/-- Step 4, first part: `FS` is Off (60_exceptions.md R425). -/
def State.fsGate (s : State) : Bool × Stop := (s.mstatus.fs == 0#2, .illegal)

/-- Step 4, second part: `frm` is invalid (60_exceptions.md R426). -/
def State.frmGate (s : State) : Bool × Stop := (decide (5 ≤ s.frm.toNat), .illegal)

/-- Step 5: `xmrstart` is not zero at an instruction that is no load/store (decision D23). -/
def State.startGate (s : State) : Bool × Stop := (s.xmrstart != 0, .reserved .startRow)

/-- A check of step 6: RESERVED unless `ok`. -/
def needs (ok : Bool) (why : Reserved) : Bool × Stop := (!ok, .reserved why)

/-- The address of the next instruction (47_host_interface.md R402). -/
def State.nextPc (s : State) : Word := wrapX s.cfg.xlen (s.pc + 4)

/-- One instruction has retired (60_exceptions.md R439). One that raises an exception does not retire:
PRESUMED, unsafe (log 34). -/
def State.retire (s : State) : State := { s with instret := s.instret + 1 }

/-- The instruction is done: `pc <- pc + 4`. -/
def State.advance (s : State) : State := { s.retire with pc := s.nextPc }

/-- `mstatus.MS <- 3` (10_state.md R53). -/
def State.dirtyMS (s : State) : State := { s with mstatus := { s.mstatus with ms := 3#2 } }

/-- `mstatus.FS <- 3` (10_state.md R56). -/
def State.dirtyFS (s : State) : State := { s with mstatus := { s.mstatus with fs := 3#2 } }

/-- The epilogue (30_encoding.md R131). -/
def State.finish (s : State) : State := ({ s with xmrstart := 0 } : State).dirtyMS.advance

end Sys2Proof.Machine
end

