-- ==== Sys2Proof/Machine/Operands.lean ====
section
/-! DEFINITION. The operand forms: the second operand of pointwise instructions (45_pointwise_arith.md
R312), the row index of the vector forms (43_move.md R281), and the operands of matrix multiplication
(40_matmul_float.md R150, R152, 41_matmul_int.md R183, R184). -/

namespace Sys2Proof.Machine

/-- The forms of the second operand (45_pointwise_arith.md R312). -/
inductive Src2 where
  /-- `mm`: the matrix `M[ms1]`. -/
  | mm (ms1 : MIdx)
  /-- `mv.x`: the row of `M[ms1]` whose number is in `x[8 + rs1]`. -/
  | mvx (ms1 : MIdx) (rs1 : XcIdx)
  /-- `mv.i`: row `uimm3` of `M[ms1]`. -/
  | mvi (ms1 : MIdx) (uimm3 : BitVec 3)
  /-- `mx`: the scalar in `x[8 + rs1]`. -/
  | mx (rs1 : XcIdx)
deriving DecidableEq, Repr

/-- The row index of `mv.x`: the whole register value, unmasked (43_move.md R281, decision D31). -/
def State.rowX (s : State) (rs1 : XcIdx) : Nat := (s.xcval rs1).toNat

/-- A row index names a row (43_move.md R281). -/
def State.rowExists (s : State) (i : Nat) : Bool := decide (i < s.cfg.rows)

/-- The row index of a vector form names a row; the other forms have none
(45_pointwise_arith.md R312, R315(d)). -/
def Src2.rowOk (s : State) : Src2 → Bool
  | .mm _ => true
  | .mvx _ rs1 => s.rowExists (s.rowX rs1)
  | .mvi _ uimm3 => s.rowExists uimm3.toNat
  | .mx _ => true

/-- The scalar operand at width `w`: sign-extended when `XLEN < w`, else the low `w` bits
(45_pointwise_arith.md R312, decision D35). -/
def State.scalar (s : State) (w : Nat) (rs1 : XcIdx) : BitVec w :=
  (signX s.cfg.xlen (s.xcval rs1)).setWidth w

/-- The second operand `b(i, j)` (45_pointwise_arith.md R312). -/
def Src2.value (s : State) (w : Nat) (i j : Nat) : Src2 → BitVec w
  | .mm ms1 => s.el w ms1 i j
  | .mvx ms1 rs1 => s.el w ms1 (s.rowX rs1) j
  | .mvi ms1 uimm3 => s.el w ms1 uimm3.toNat j
  | .mx rs1 => s.scalar w rs1

/-- Where the accumulator `C` of a matrix multiplication lies: in `M[md]`, or split by column over
the pair `M[md]`, `M[md+1]` (40_matmul_float.md R152, 41_matmul_int.md R183, decision D6). -/
inductive AccLayout where
  | single | pair
deriving DecidableEq, Repr

/-- `Cget(i, j)` at accumulator width `w` (40_matmul_float.md R152, 41_matmul_int.md R183). -/
def State.accGet (s : State) (l : AccLayout) (w : Nat) (md : MIdx) (i j : Nat) : BitVec w :=
  match l with
  | .single => s.el w md i j
  | .pair =>
    if j < s.cfg.rows / 2 then s.el w md i j else s.el w (md + 1#3) i (j - s.cfg.rows / 2)

/-- The new contents of the destination register or pair, whose element `(i, j)` is `f i j` in the
active shape and zero elsewhere (`Cset`, 10_state.md R48). -/
def State.accBuild (s : State) (l : AccLayout) (w : Nat) (f : Nat → Nat → BitVec w) : List MReg :=
  let half := s.cfg.rows / 2
  match l with
  | .single => [tiled s.cfg s.sM s.sN w f]
  | .pair =>
    [tiled s.cfg s.sM (min s.sN half) w f,
      tiled s.cfg s.sM (s.sN - half) w fun i j => f i (j + half)]

/-- Operand `B` of a matrix multiplication: `M[ms2]`, or for `fmmacc.h` the pair `M[ms2]`,
`M[ms2+1]`, row after row (40_matmul_float.md R152, decision D7). -/
def State.bGet (s : State) (pairB : Bool) (w : Nat) (ms2 : MIdx) (j k : Nat) : BitVec w :=
  if pairB && decide (s.cfg.rows ≤ j) then s.el w (ms2 + 1#3) (j - s.cfg.rows) k else s.el w ms2 j k

/-- How many columns of width `w` lie in `sizeK` bytes; two 4-bit columns lie in one byte
(00_scope.md R10, 41_matmul_int.md R184). -/
def State.kElems (s : State) (w : Nat) : Nat := if w = 4 then 2 * s.sK else s.sK / (w / 8)

end Sys2Proof.Machine
end

