-- ==== Sys2Proof/Machine/Configure.lean ====
section
/-! DEFINITION. Configuration instructions (44_config.md R290 to R301). -/

namespace Sys2Proof.Machine

/-- `CFG` with an immediate, which always fits (44_config.md R294, R295). -/
def State.configure (s : State) (word : BitVec 32) (f : State → State) :
    Host.Outcome State Fault Refusal :=
  s.guard word [s.offGate, s.startGate] (.next (f s).finish)

/-- `CFG` with the value of a register, RESERVED unless it is below `2^width`
(44_config.md R292, R294). -/
def State.configureReg (s : State) (word : BitVec 32) (width : Nat) (rs1 : XIdx)
    (f : Word → State → State) : Host.Outcome State Fault Refusal :=
  s.guard word
    [s.offGate, s.startGate, needs (decide ((s.xval rs1).toNat < 2 ^ width)) .cfgValue]
    (.next (f (s.xval rs1) s).finish)

/-- `mcfgki` (R295). -/
def execMcfgki (uimm7 : BitVec 7) (s : State) :
    Host.Outcome State Fault Refusal :=
  s.configure (encode (.mcfgki uimm7)) (fun t => { t with sizeK := uimm7.setWidth 16 })

/-- `mcfgmi` (R296). -/
def execMcfgmi (uimm7 : BitVec 7) (s : State) :
    Host.Outcome State Fault Refusal :=
  s.configure (encode (.mcfgmi uimm7)) (fun t => { t with sizeM := uimm7.setWidth 8 })

/-- `mcfgni` (R297). -/
def execMcfgni (uimm7 : BitVec 7) (s : State) :
    Host.Outcome State Fault Refusal :=
  s.configure (encode (.mcfgni uimm7)) (fun t => { t with sizeN := uimm7.setWidth 8 })

/-- `mcfgk` (R298). -/
def execMcfgk (rs1 : XIdx) (s : State) :
    Host.Outcome State Fault Refusal :=
  s.configureReg (encode (.mcfgk rs1)) 16 rs1 (fun v t => { t with sizeK := v.setWidth 16 })

/-- `mcfgm` (R299). -/
def execMcfgm (rs1 : XIdx) (s : State) :
    Host.Outcome State Fault Refusal :=
  s.configureReg (encode (.mcfgm rs1)) 8 rs1 (fun v t => { t with sizeM := v.setWidth 8 })

/-- `mcfgn` (R300). -/
def execMcfgn (rs1 : XIdx) (s : State) :
    Host.Outcome State Fault Refusal :=
  s.configureReg (encode (.mcfgn rs1)) 8 rs1 (fun v t => { t with sizeN := v.setWidth 8 })

/-- `mcfg` (R301). -/
def execMcfg (rs1 : XIdx) (s : State) :
    Host.Outcome State Fault Refusal :=
  s.configureReg (encode (.mcfg rs1)) 32 rs1 (fun v t =>
    { t with
      sizeM := v.extractLsb' 0 8, sizeN := v.extractLsb' 8 8, sizeK := v.extractLsb' 16 16 })

end Sys2Proof.Machine
end

