-- ==== Sys2Proof/Machine/Flags.lean ====
section
/-! DEFINITION. Fixed-point rounding and saturation with `xmxsat` (10_state.md R40 to R42,
46_pointwise_shift_clip.md R363, R364), and the accrued flags of `fcsr` (10_state.md R55, R58). -/

namespace Sys2Proof.Machine

/-- The rounding increment `r` for `d` discarded bits of `v` under `xmxrm` (10_state.md R40, R41). -/
def roundInc {w : Nat} (rm : BitVec 2) (v : BitVec w) (d : Nat) : Nat :=
  if d = 0 then 0
  else
    let half := v.getLsbD (d - 1)
    let below := v.toNat % 2 ^ (d - 1) != 0
    let bit : Bool :=
      match rm.toNat with
      | 0 => half
      | 1 => half && (below || v.getLsbD d)
      | 2 => false
      | _ => !v.getLsbD d && v.toNat % 2 ^ d != 0
    bit.toNat

/-- `roundoff_signed(v, d)` (10_state.md R41). -/
def roundoffSigned {w : Nat} (rm : BitVec 2) (v : BitVec w) (d : Nat) : Int :=
  v.toInt / 2 ^ d + roundInc rm v d

/-- `roundoff_unsigned(v, d)` (10_state.md R41). -/
def roundoffUnsigned {w : Nat} (rm : BitVec 2) (v : BitVec w) (d : Nat) : Int :=
  ((v.toNat / 2 ^ d + roundInc rm v d : Nat) : Int)

/-- `clip_signed(v, n)`: the `n`-bit pattern and whether it saturated
(46_pointwise_shift_clip.md R363). -/
def clipSigned (n : Nat) (v : Int) : BitVec n × Bool :=
  if 2 ^ (n - 1) - 1 < v then (BitVec.ofInt n (2 ^ (n - 1) - 1), true)
  else if v < -2 ^ (n - 1) then (BitVec.ofInt n (-2 ^ (n - 1)), true)
  else (BitVec.ofInt n v, false)

/-- `clip_unsigned(v, n)` (46_pointwise_shift_clip.md R363). -/
def clipUnsigned (n : Nat) (v : Int) : BitVec n × Bool :=
  if 2 ^ n - 1 < v then (BitVec.ofInt n (2 ^ n - 1), true) else (BitVec.ofInt n v, false)

/-- `xmxsat <- 1` if some element saturated; it is never cleared here
(46_pointwise_shift_clip.md R364). -/
def State.saturate (s : State) (sat : Bool) : State := { s with xmxsat := s.xmxsat || sat }

/-- Flags are ORed into `fflags` (40_matmul_float.md R156). -/
def State.accrue (s : State) (flags : BitVec 5) : State := { s with fflags := s.fflags ||| flags }

/-- NV, invalid operation (10_state.md R55). -/
def flagNV : BitVec 5 := 0b10000#5

/-- DZ, divide by zero. -/
def flagDZ : BitVec 5 := 0b01000#5

/-- OF, overflow. -/
def flagOF : BitVec 5 := 0b00100#5

/-- UF, underflow. -/
def flagUF : BitVec 5 := 0b00010#5

/-- NX, inexact. -/
def flagNX : BitVec 5 := 0b00001#5

end Sys2Proof.Machine
end

