-- ==== Sys2Proof/Machine/Float.lean ====
section
/-! DEFINITION. Floating-point formats, the final rounding, and the float dot product with the
properties P1 to P5 of 40_matmul_float.md R155. What P4 leaves to the implementation is free
(logs 12 and 13). -/

namespace Sys2Proof.Machine

/-- A binary format: the widths of the exponent and of the fraction (40_matmul_float.md R154). -/
structure FFormat where
  eb : Nat
  fb : Nat
deriving DecidableEq, Repr

/-- binary16. -/
def binary16 : FFormat := ⟨5, 10⟩

/-- bfloat16. -/
def bfloat16 : FFormat := ⟨8, 7⟩

/-- binary32. -/
def binary32 : FFormat := ⟨8, 23⟩

/-- binary64. -/
def binary64 : FFormat := ⟨11, 52⟩

/-- The exponent bias, which is also the largest exponent. -/
def FFormat.bias (f : FFormat) : Nat := 2 ^ (f.eb - 1) - 1

/-- The least exponent of a normal number. -/
def FFormat.emin (f : FFormat) : Int := 1 - (f.bias : Int)

/-- The bits of +infinity. -/
def FFormat.infBits (f : FFormat) : Nat := (2 ^ f.eb - 1) * 2 ^ f.fb

/-- The bits of the sign. -/
def FFormat.signBits (f : FFormat) (neg : Bool) : Nat := if neg then 2 ^ (f.eb + f.fb) else 0

/-- The canonical NaN: positive, quiet, zero payload (40_matmul_float.md R154, decision D12). -/
def FFormat.nanBits (f : FFormat) : Nat := f.infBits + 2 ^ (f.fb - 1)

/-- A floating-point value; the finite one is `(-1)^neg * mant * 2^exp`. -/
inductive FVal where
  | nan
  | inf (neg : Bool)
  | fin (neg : Bool) (mant : Nat) (exp : Int)
deriving DecidableEq, Repr

/-- The value of a bit pattern (40_matmul_float.md R154). -/
def FFormat.unpack (f : FFormat) (v : Nat) : FVal :=
  let frac := v % 2 ^ f.fb
  let e := v / 2 ^ f.fb % 2 ^ f.eb
  let neg := v / 2 ^ (f.eb + f.fb) % 2 == 1
  if e = 2 ^ f.eb - 1 then (if frac = 0 then .inf neg else .nan)
  else if e = 0 then .fin neg frac (f.emin - f.fb)
  else .fin neg (2 ^ f.fb + frac) ((e : Int) - f.bias - f.fb)

/-- Whether rounding `mant + rem/2^d` goes away from zero under `frm` (10_state.md R55). -/
def roundsUp (rm : BitVec 3) (neg : Bool) (mant rem d : Nat) : Bool :=
  match rm.toNat with
  | 0 => decide (2 ^ d < 2 * rem) || (2 * rem == 2 ^ d && mant % 2 == 1)
  | 1 => false
  | 2 => neg && rem != 0
  | 3 => !neg && rem != 0
  | _ => rem != 0 && decide (2 ^ d ≤ 2 * rem)

/-- Whether an overflow gives infinity rather than the largest finite number. -/
def overflowsToInf (rm : BitVec 3) (neg : Bool) : Bool :=
  match rm.toNat with
  | 0 => true
  | 1 => false
  | 2 => neg
  | 3 => !neg
  | _ => true

/-- `mant * 2^exp` as a multiple of `2^q`: the rounded multiple and whether it is inexact. -/
def roundAt (rm : BitVec 3) (neg : Bool) (mant : Nat) (exp q : Int) : Nat × Bool :=
  if q ≤ exp then (mant * 2 ^ (exp - q).toNat, false)
  else
    let d := (q - exp).toNat
    let m := mant / 2 ^ d
    let rem := mant % 2 ^ d
    (m + (roundsUp rm neg m rem d).toNat, rem != 0)

/-- The final rounding of a number that is not zero, with OF, UF (tininess after rounding,
decision D12) and NX (40_matmul_float.md R155 P4). With `lost` the number stands for one from which
precision has been lost already, so that the result is inexact: NX is raised then, and UF with it where the
result is tiny, even where this rounding is exact. That NX never comes without UF there is a DESIGN CHOICE,
unsafe (log 12). -/
def FFormat.round (f : FFormat) (rm : BitVec 3) (neg : Bool) (mant : Nat) (exp : Int) (lost : Bool) :
    Nat × BitVec 5 :=
  let top : Int := (mant.log2 : Int) + exp
  let q := max (top - f.fb) (f.emin - f.fb)
  let r := roundAt rm neg mant exp q
  let bits := (q + f.fb + f.bias - 1).toNat * 2 ^ f.fb + r.1
  if f.infBits ≤ bits then
    (f.signBits neg + (if overflowsToInf rm neg then f.infBits else f.infBits - 1),
      flagOF ||| flagNX)
  else
    let tiny := decide (top + 1 < f.emin) ||
      (decide (top + 1 = f.emin) &&
        decide ((roundAt rm neg mant exp (top - f.fb)).1 < 2 ^ (f.fb + 1)))
    let inexact := r.2 || lost
    (f.signBits neg + bits,
      (if tiny && inexact then flagUF else 0) ||| (if inexact then flagNX else 0))

/-- A product term; infinity times zero has no value. -/
def FVal.mul : FVal → FVal → FVal
  | .nan, _ => .nan
  | _, .nan => .nan
  | .inf n, .inf n' => .inf (n != n')
  | .inf n, .fin n' m _ => if m = 0 then .nan else .inf (n != n')
  | .fin n m _, .inf n' => if m = 0 then .nan else .inf (n != n')
  | .fin n m e, .fin n' m' e' => .fin (n != n') (m * m') (e + e')

/-- A value is NaN. -/
def FVal.isNan : FVal → Bool
  | .nan => true
  | _ => false

/-- A finite term: sign, mantissa, exponent. -/
structure Term where
  neg : Bool
  mant : Nat
  exp : Int
deriving DecidableEq, Repr

/-- The finite terms of a list of values. -/
def finiteTerms : List FVal → List Term
  | [] => []
  | .fin n m e :: rest => ⟨n, m, e⟩ :: finiteTerms rest
  | _ :: rest => finiteTerms rest

/-- The least exponent of the terms. -/
def leastExp : List Term → Int
  | [] => 0
  | [t] => t.exp
  | t :: rest => min t.exp (leastExp rest)

/-- The mantissa of a term at the exponent `e`. -/
def Term.at (t : Term) (e : Int) : Nat := t.mant * 2 ^ (t.exp - e).toNat

/-- A term as a multiple of `2^e`. -/
def Term.scaled (t : Term) (e : Int) : Int := if t.neg then -(t.at e : Int) else t.at e

/-- A number rounded to `bits` significant bits, with no limit on its exponent. -/
def roundTo (rm : BitVec 3) (bits : Nat) (v : Int) : Int :=
  let n := v.natAbs
  if n.log2 < bits then v
  else
    let d := n.log2 + 1 - bits
    let m := n / 2 ^ d + (roundsUp rm (decide (v < 0)) (n / 2 ^ d) (n % 2 ^ d) d).toNat
    if v < 0 then -((m * 2 ^ d : Nat) : Int) else ((m * 2 ^ d : Nat) : Int)

/-- What an evaluation keeps of value `i`, which is rounded to at least `bits` bits if it is rounded. -/
def keepValue (p : SumPlan) (rm : BitVec 3) (bits i : Nat) (v : Int) : Int :=
  match p.extra i with
  | none => v
  | some k => roundTo rm (bits + k) v

/-- The next `n` additions of an evaluation, from value `i` on: each takes two of the values and puts
what is kept of their sum in their place. Also whether precision was lost. -/
def addValues (p : SumPlan) (rm : BitVec 3) (bits : Nat) : Nat → Nat → List Int →
    List Int × Bool
  | 0, _, vs => (vs, false)
  | n + 1, i, vs =>
    let a := p.order (2 * i) % vs.length
    let others := vs.eraseIdx a
    let b := p.order (2 * i + 1) % others.length
    let sum := vs.getD a 0 + others.getD b 0
    let kept := keepValue p rm bits i sum
    let r := addValues p rm bits n (i + 1) (kept :: others.eraseIdx b)
    (r.1, kept != sum || r.2)

/-- The evaluation of a sum in intermediate values of at least `bits` bits: the number that the final
rounding takes, and whether precision was lost at the last addition, or before it. The exponents of
intermediate values are unlimited, since the sum has "no avoidable intermediate exception conditions".
The last sum is rounded once to the accumulator format, at most through a wider value. -/
def planTotal (p : SumPlan) (rm : BitVec 3) (bits : Nat) (vs : List Int) : Int × Bool × Bool :=
  let terms := if vs.length ≤ 1 then vs else vs.mapIdx fun i v => keepValue p rm bits i v
  let r := addValues p rm bits (vs.length - 2) vs.length terms
  let last := r.1.sum
  let kept := keepValue p rm (bits + 1) (2 * vs.length) last
  (kept, kept != last, terms != vs || r.2)

/-- The power of two in a number. -/
def twoPart (n : Nat) : Nat := Nat.gcd n (2 ^ (n.log2 + 1))

/-- A number has at most `bits` significant bits. -/
def fitsBits (bits : Nat) (v : Int) : Bool := decide (v.natAbs ≤ twoPart v.natAbs * 2 ^ bits)

/-- Every evaluation of the sum is exact: every partial sum has at most `bits` significant bits, or
there is at most one addition, of such terms, and the last sum has one bit more. This only shortens the
evaluation of `sumOf` (Laws/Float.lean, `sumOf_eq_planTotal`). -/
def determined (bits : Nat) (vs : List Int) : Bool :=
  decide ((vs.map Int.natAbs).sum ≤ twoPart (vs.foldl (fun g v => Nat.gcd g v.natAbs) 0) * 2 ^ bits) ||
    (decide (vs.length ≤ 1) || decide (vs.length = 2) && vs.all (fitsBits bits)) &&
      fitsBits (bits + 1) vs.sum

/-- `planTotal`, by exact addition where every evaluation is exact. -/
def sumOf (p : SumPlan) (rm : BitVec 3) (bits : Nat) (vs : List Int) : Int × Bool × Bool :=
  if determined bits vs then (vs.sum, false, false) else planTotal p rm bits vs

/-- The formats of a float matrix multiplication: sources and accumulator
(40_matmul_float.md R151, R153). -/
def floatFormats (op : FloatOp) (bf16 : Bool) : FFormat × FFormat :=
  let half := if bf16 then bfloat16 else binary16
  match op with
  | .fmmaccH => (half, half)
  | .fmmaccS => (binary32, binary32)
  | .fmmaccD => (binary64, binary64)
  | .fwmmaccH => (half, binary32)
  | .fwmmaccS => (binary32, binary64)

/-- The sum of finite terms, rounded under `rm`, where the order of the additions, the number of
roundings and the precision of intermediate values are those of the evaluation `p`
(40_matmul_float.md R155 P4; log 12). OF, UF and NX are those of the final rounding; whether NX is raised for
precision lost before the last addition alone is free, and UF goes with it where the result is tiny. A sum that is
zero after such a loss raises no UF: DESIGN CHOICE, unsafe (log 12). The sign of a zero that does not come from zeros
of one sign is free (log 13). -/
def finiteDot (f : FFormat) (rm : BitVec 3) (p : SumPlan) (freeSign : Bool) (ts : List Term) :
    Nat × BitVec 5 :=
  let nonzero := ts.filter fun t => t.mant != 0
  let e := leastExp nonzero
  let r := sumOf p rm (f.fb + 1) (nonzero.map fun t => t.scaled e)
  let lost := r.2.1 || r.2.2 && p.inexact
  if r.1 = 0 then
    let neg := if ts.all (fun t => t.mant == 0 && t.neg) then true
      else if ts.all (fun t => t.mant == 0 && !t.neg) then false
      else freeSign
    (f.signBits neg, if lost then flagNX else 0)
  else f.round rm (decide (r.1 < 0)) r.1.natAbs e lost

/-- `fdot[op](c, a, b, rm, bf16)` (40_matmul_float.md R155). -/
def fdot (op : FloatOp) (c : Word) (a b : List Word) (rm : BitVec 3) (bf16 : Bool) :
    Word × BitVec 5 :=
  let src := (floatFormats op bf16).1
  let acc := (floatFormats op bf16).2
  let cv := acc.unpack c.toNat
  let pairs := (a.zip b).map fun p => (src.unpack p.1.toNat, src.unpack p.2.toNat)
  let prods := pairs.map fun p => FVal.mul p.1 p.2
  let anyNan := cv.isNan || pairs.any fun p => p.1.isNan || p.2.isNan
  let infTimesZero := pairs.any fun p => !p.1.isNan && !p.2.isNan && (FVal.mul p.1 p.2).isNan
  let terms := cv :: prods
  let posInf := terms.contains (.inf false)
  let negInf := terms.contains (.inf true)
  let invalid := infTimesZero || (posInf && negInf)
  let out : Nat × BitVec 5 :=
    if anyNan then
      (acc.nanBits,
        (Config.fdotNanFlags op c a b rm bf16 &&& ~~~flagDZ) ||| (if invalid then flagNV else 0))
    else if invalid then (acc.nanBits, flagNV)
    else if posInf then (acc.infBits, 0)
    else if negInf then (acc.signBits true + acc.infBits, 0)
    else
      finiteDot acc rm (Config.fdotPlan op c a b rm bf16)
        (Config.fdotZeroNegative op c a b rm bf16) (finiteTerms terms)
  (BitVec.ofNat 64 out.1, out.2)

end Sys2Proof.Machine
end

