-- ==== Sys2Proof/Machine/FloatMul.lean ====
section
/-! DEFINITION. Float matrix multiplication (40_matmul_float.md R150 to R163). -/

namespace Sys2Proof.Machine

/-- The parameters of `FMM` (40_matmul_float.md R158): source and accumulator width, whether `B` is
a pair, where `C` lies, and the bit of `xmisa`. -/
structure FloatMulKind where
  op : FloatOp
  ws : Nat
  wd : Nat
  pairB : Bool
  acc : AccLayout
  bit : Nat
deriving DecidableEq, Repr

/-- 16-bit elements are bfloat16 (10_state.md R57). -/
def State.bf16Mode (s : State) : Bool := s.cfg.hasBf16 && s.bf16

/-- The registers that hold operand `B`. -/
def bRegs (pairB : Bool) (ms2 : MIdx) : List MIdx := if pairB then [ms2, ms2 + 1#3] else [ms2]

/-- The registers that hold operand `C`. -/
def accRegs (l : AccLayout) (md : MIdx) : List MIdx :=
  match l with
  | .single => [md]
  | .pair => [md, md + 1#3]

/-- The first register of `C` may start it (10_state.md R34). -/
def accOk (l : AccLayout) (md : MIdx) : Bool :=
  match l with
  | .single => true
  | .pair => pairOk md

/-- The largest `sizeN`: `2*ROWS` where `B` is a pair, else `ROWS` (10_state.md R46). -/
def State.maxN (s : State) (pairB : Bool) : Nat := if pairB then 2 * s.cfg.rows else s.cfg.rows

/-- The checks of `FMM` (40_matmul_float.md R157, R158). -/
def State.floatChecks (s : State) (k : FloatMulKind) (md ms2 ms1 : MIdx) : List (Bool × Stop) :=
  [s.offGate, s.featureGate k.bit, s.fsGate, s.frmGate, s.startGate,
    needs (!k.pairB || pairOk ms2) .oddPair, needs (accOk k.acc md) .oddPair,
    needs (disjointRegs (accRegs k.acc md) (ms1 :: bRegs k.pairB ms2)) .overlap,
    needs (s.validMM k.ws (s.maxN k.pairB)) .shape]

/-- The dot product that gives element `(i, j)` of `C`, and its flags (40_matmul_float.md R158). -/
def State.dotAt (s : State) (k : FloatMulKind) (md ms2 ms1 : MIdx) (i j : Nat) :
    Word × BitVec 5 :=
  let cols := List.range (s.kElems k.ws)
  fdot k.op ((s.accGet k.acc k.wd md i j).setWidth 64)
    (cols.map fun c => (s.el k.ws ms1 i c).setWidth 64)
    (cols.map fun c => (s.bGet k.pairB k.ws ms2 j c).setWidth 64) s.frm s.bf16Mode

/-- The flags of all dot products of one instruction, ORed (40_matmul_float.md R156). -/
def State.dotFlags (s : State) (k : FloatMulKind) (md ms2 ms1 : MIdx) : BitVec 5 :=
  (List.range s.sM).foldl (fun acc i =>
    (List.range s.sN).foldl (fun acc j => acc ||| (s.dotAt k md ms2 ms1 i j).2) acc) 0

/-- The new contents of `C` (40_matmul_float.md R158). -/
def State.floatResult (s : State) (k : FloatMulKind) (md ms2 ms1 : MIdx) : List MReg :=
  s.accBuild k.acc k.wd fun i j => (s.dotAt k md ms2 ms1 i j).1.setWidth k.wd

/-- `FMM` (40_matmul_float.md R158); `FS` becomes Dirty too (10_state.md R56). -/
def State.floatMul (s : State) (word : BitVec 32) (k : FloatMulKind) (md ms2 ms1 : MIdx) :
    Host.Outcome State Fault Refusal :=
  s.guard word (s.floatChecks k md ms2 ms1)
    (.next
      ((s.setGroup md (s.floatResult k md ms2 ms1)).accrue
        (s.dotFlags k md ms2 ms1)).dirtyFS.finish)

/-- `fmmacc.h` (R159). -/
def execFmmaccH (md ms2 ms1 : MIdx) (s : State) :
    Host.Outcome State Fault Refusal :=
  s.floatMul (encode (.fmmaccH md ms2 ms1))
    { op := .fmmaccH, ws := 16, wd := 16, pairB := true, acc := .single, bit := 3 } md ms2 ms1

/-- `fmmacc.s` (R160). -/
def execFmmaccS (md ms2 ms1 : MIdx) (s : State) :
    Host.Outcome State Fault Refusal :=
  s.floatMul (encode (.fmmaccS md ms2 ms1))
    { op := .fmmaccS, ws := 32, wd := 32, pairB := false, acc := .single, bit := 4 } md ms2 ms1

/-- `fmmacc.d` (R161). -/
def execFmmaccD (md ms2 ms1 : MIdx) (s : State) :
    Host.Outcome State Fault Refusal :=
  s.floatMul (encode (.fmmaccD md ms2 ms1))
    { op := .fmmaccD, ws := 64, wd := 64, pairB := false, acc := .pair, bit := 5 } md ms2 ms1

/-- `fwmmacc.h` (R162). -/
def execFwmmaccH (md ms2 ms1 : MIdx) (s : State) :
    Host.Outcome State Fault Refusal :=
  s.floatMul (encode (.fwmmaccH md ms2 ms1))
    { op := .fwmmaccH, ws := 16, wd := 32, pairB := false, acc := .single, bit := 8 } md ms2 ms1

/-- `fwmmacc.s` (R163). -/
def execFwmmaccS (md ms2 ms1 : MIdx) (s : State) :
    Host.Outcome State Fault Refusal :=
  s.floatMul (encode (.fwmmaccS md ms2 ms1))
    { op := .fwmmaccS, ws := 32, wd := 64, pairB := false, acc := .pair, bit := 9 } md ms2 ms1

end Sys2Proof.Machine
end

