-- ==== Sys2Proof/Machine/IntMul.lean ====
section
/-! DEFINITION. Integer matrix multiplication (41_matmul_int.md R180 to R197). -/

namespace Sys2Proof.Machine

/-- The signedness that a mnemonic names: first letter, second letter (41_matmul_int.md R181). -/
inductive Signs where
  | ss | uu | us | su
deriving DecidableEq, Repr

/-- The parameters of `IMM` (41_matmul_int.md R182). -/
structure IntMulKind where
  signs : Signs
  ws : Nat
  wd : Nat
  acc : AccLayout
  bit : Nat
deriving DecidableEq, Repr

/-- Whether `A` and `B` are read as signed; `SU_ORDER = B_first` swaps the mixed forms
(41_matmul_int.md R181, decision D9). -/
def Signs.ofOperands (o : SuOrder) : Signs → Bool × Bool
  | .ss => (true, true)
  | .uu => (false, false)
  | .us =>
    match o with
    | .aFirst => (false, true)
    | .bFirst => (true, false)
  | .su =>
    match o with
    | .aFirst => (true, false)
    | .bFirst => (false, true)

/-- The registers that the accumulator occupies and whether the first may start it
(41_matmul_int.md R183). -/
def accRegsOk (l : AccLayout) (md ms2 ms1 : MIdx) : List (Bool × Stop) :=
  match l with
  | .single => [needs (disjointRegs [md] [ms1, ms2]) .overlap]
  | .pair => [needs (pairOk md) .oddPair, needs (disjointRegs [md, md + 1#3] [ms1, ms2]) .overlap]

/-- The checks of `IMM` (41_matmul_int.md R182). -/
def State.intChecks (s : State) (k : IntMulKind) (md ms2 ms1 : MIdx) : List (Bool × Stop) :=
  [s.offGate, s.featureGate k.bit, s.startGate] ++ accRegsOk k.acc md ms2 ms1 ++
    [needs (s.validMM k.ws s.cfg.rows) .shape]

/-- The sum of the products for element `(i, j)`, exact (41_matmul_int.md R181, R182). -/
def State.intDot (s : State) (k : IntMulKind) (ms2 ms1 : MIdx) (i j : Nat) : Int :=
  let sg := k.signs.ofOperands s.cfg.suOrder
  ((List.range (s.kElems k.ws)).map fun c =>
    intValue sg.1 (s.el k.ws ms1 i c) * intValue sg.2 (s.el k.ws ms2 j c)).sum

/-- Element `(i, j)` of the new accumulator (41_matmul_int.md R182). -/
def State.intAt (s : State) (k : IntMulKind) (md ms2 ms1 : MIdx) (i j : Nat) : BitVec k.wd :=
  BitVec.ofInt k.wd ((s.accGet k.acc k.wd md i j).toInt + s.intDot k ms2 ms1 i j)

/-- `IMM` (41_matmul_int.md R182). -/
def State.intMul (s : State) (word : BitVec 32) (k : IntMulKind) (md ms2 ms1 : MIdx) :
    Host.Outcome State Fault Refusal :=
  s.guard word (s.intChecks k md ms2 ms1)
    (.next (s.setGroup md (s.accBuild k.acc k.wd (s.intAt k md ms2 ms1))).finish)

/-- `mmaqa.b` (R186). -/
def execMmaqaB (md ms2 ms1 : MIdx) (s : State) :
    Host.Outcome State Fault Refusal :=
  s.intMul (encode (.mmaqaB md ms2 ms1))
    { signs := .ss, ws := 8, wd := 32, acc := .single, bit := 1 } md ms2 ms1

/-- `mmaqau.b` (R187). -/
def execMmaqauB (md ms2 ms1 : MIdx) (s : State) :
    Host.Outcome State Fault Refusal :=
  s.intMul (encode (.mmaqauB md ms2 ms1))
    { signs := .uu, ws := 8, wd := 32, acc := .single, bit := 1 } md ms2 ms1

/-- `mmaqaus.b` (R188). -/
def execMmaqausB (md ms2 ms1 : MIdx) (s : State) :
    Host.Outcome State Fault Refusal :=
  s.intMul (encode (.mmaqausB md ms2 ms1))
    { signs := .us, ws := 8, wd := 32, acc := .single, bit := 1 } md ms2 ms1

/-- `mmaqasu.b` (R189). -/
def execMmaqasuB (md ms2 ms1 : MIdx) (s : State) :
    Host.Outcome State Fault Refusal :=
  s.intMul (encode (.mmaqasuB md ms2 ms1))
    { signs := .su, ws := 8, wd := 32, acc := .single, bit := 1 } md ms2 ms1

/-- `mmaqa.h` (R190). -/
def execMmaqaH (md ms2 ms1 : MIdx) (s : State) :
    Host.Outcome State Fault Refusal :=
  s.intMul (encode (.mmaqaH md ms2 ms1))
    { signs := .ss, ws := 16, wd := 64, acc := .pair, bit := 2 } md ms2 ms1

/-- `mmaqau.h` (R191). -/
def execMmaqauH (md ms2 ms1 : MIdx) (s : State) :
    Host.Outcome State Fault Refusal :=
  s.intMul (encode (.mmaqauH md ms2 ms1))
    { signs := .uu, ws := 16, wd := 64, acc := .pair, bit := 2 } md ms2 ms1

/-- `mmaqaus.h` (R192). -/
def execMmaqausH (md ms2 ms1 : MIdx) (s : State) :
    Host.Outcome State Fault Refusal :=
  s.intMul (encode (.mmaqausH md ms2 ms1))
    { signs := .us, ws := 16, wd := 64, acc := .pair, bit := 2 } md ms2 ms1

/-- `mmaqasu.h` (R193). -/
def execMmaqasuH (md ms2 ms1 : MIdx) (s : State) :
    Host.Outcome State Fault Refusal :=
  s.intMul (encode (.mmaqasuH md ms2 ms1))
    { signs := .su, ws := 16, wd := 64, acc := .pair, bit := 2 } md ms2 ms1

/-- `pmmaqa.b` (R194). -/
def execPmmaqaB (md ms2 ms1 : MIdx) (s : State) :
    Host.Outcome State Fault Refusal :=
  s.intMul (encode (.pmmaqaB md ms2 ms1))
    { signs := .ss, ws := 4, wd := 32, acc := .single, bit := 0 } md ms2 ms1

/-- `pmmaqau.b` (R195). -/
def execPmmaqauB (md ms2 ms1 : MIdx) (s : State) :
    Host.Outcome State Fault Refusal :=
  s.intMul (encode (.pmmaqauB md ms2 ms1))
    { signs := .uu, ws := 4, wd := 32, acc := .single, bit := 0 } md ms2 ms1

/-- `pmmaqaus.b` (R196). -/
def execPmmaqausB (md ms2 ms1 : MIdx) (s : State) :
    Host.Outcome State Fault Refusal :=
  s.intMul (encode (.pmmaqausB md ms2 ms1))
    { signs := .us, ws := 4, wd := 32, acc := .single, bit := 0 } md ms2 ms1

/-- `pmmaqasu.b` (R197). -/
def execPmmaqasuB (md ms2 ms1 : MIdx) (s : State) :
    Host.Outcome State Fault Refusal :=
  s.intMul (encode (.pmmaqasuB md ms2 ms1))
    { signs := .su, ws := 4, wd := 32, acc := .single, bit := 0 } md ms2 ms1

end Sys2Proof.Machine
end

