-- ==== Sys2Proof/Machine/LoadStore.lean ====
section
/-! DEFINITION. Matrix loads and stores: normal, stream and whole-register
(42_load_store.md R210 to R267, 20_memory.md R81 to R88, 60_exceptions.md R427, R431). -/

namespace Sys2Proof.Machine

/-! ### What a transfer accesses -/

/-- One transfer: its rows, the bytes of a row, the bytes of an element, and the address of byte
`c` of row `q`. Element `k` is bytes `k*esize` on; its least significant byte comes first
(20_memory.md R82, R83). -/
structure Transfer where
  rows : Nat
  rowBytes : Nat
  esize : Nat
  addr : Nat → Nat → Nat

/-- The address of byte `c` of row `i` of a normal or stream transfer (20_memory.md R81). -/
def State.ea (s : State) (rs1 rs2 : XIdx) (i c : Nat) : Nat :=
  ((s.xval rs1).toNat + i * (s.xval rs2).toNat + c) % 2 ^ s.cfg.xlen.bits

/-- The address of byte `c` of global row `q` of a whole-register transfer
(42_load_store.md R215, decision D28). -/
def State.wholeEa (s : State) (rs1 : XIdx) (q c : Nat) : Nat :=
  ((s.xval rs1).toNat + q * s.cfg.mlenb + c) % 2 ^ s.cfg.xlen.bits

/-- The transfer of a normal or stream form (42_load_store.md R211). -/
def State.shaped (s : State) (esize : Nat) (rs1 rs2 : XIdx) : Transfer :=
  { rows := s.sM, rowBytes := s.sK, esize := esize, addr := s.ea rs1 rs2 }

/-- The transfer of a whole-register form of `n` registers (42_load_store.md R215). -/
def State.whole (s : State) (n esize : Nat) (rs1 : XIdx) : Transfer :=
  { rows := n * s.cfg.rows, rowBytes := s.cfg.mlenb, esize := esize, addr := s.wholeEa rs1 }

/-- Row `q` of the registers from `M[r]` on (42_load_store.md R215). -/
def State.groupRow (s : State) (r : MIdx) (q : Nat) : Row :=
  s.mrow (r + BitVec.ofNat 3 (q / s.cfg.rows)) (q % s.cfg.rows)

/-! ### What the accesses meet -/

/-- What loading or storing a byte meets. Memory whose reads or whose writes have side effects is
RESERVED to both (20_memory.md R87). -/
def State.reach (s : State) (store : Bool) (a : Nat) : Reach :=
  if s.readReach a == .sideEffects || s.writeReach a == .sideEffects then .sideEffects
  else if store then s.writeReach a
  else s.readReach a

/-- Element `k` of row `q` is aligned (20_memory.md R84). -/
def Transfer.aligned (t : Transfer) (q k : Nat) : Bool := t.addr q (k * t.esize) % t.esize == 0

/-- The byte addresses of element `k` of row `q`. -/
def Transfer.elemBytes (t : Transfer) (q k : Nat) : List Nat :=
  (List.range t.esize).map fun b => t.addr q (k * t.esize + b)

/-- The elements of a row. -/
def Transfer.elems (t : Transfer) : List Nat := List.range (t.rowBytes / t.esize)

/-- Element `k` of row `q` is performed as an access of its bytes: it is aligned, or misaligned
elements are split (20_memory.md R84). -/
def State.performs (s : State) (t : Transfer) (q k : Nat) : Bool :=
  t.aligned q k || s.cfg.misalignedPolicy == .split

/-- Why element `k` of row `q` is RESERVED, if it is (20_memory.md R84, R87). -/
def State.elemReserved (s : State) (store : Bool) (t : Transfer) (q k : Nat) : Option Reserved :=
  if s.performs t q k then
    if (t.elemBytes q k).any fun a => s.reach store a == .sideEffects then some .sideEffects
    else none
  else
    match s.cfg.misalignedPolicy with
    | .refuse => some .misaligned
    | _ => none

/-- The bytes of a page of the host: the family's size, PRESUMED, unsafe (log 30). -/
def pageBytes : Nat := 4096

/-- Element `k` of row `q` is misaligned and its bytes lie in more than one page
(60_exceptions.md R427). -/
def Transfer.straddles (t : Transfer) (q k : Nat) : Bool :=
  !t.aligned q k &&
    (t.elemBytes q k).any fun a => a / pageBytes != t.addr q (k * t.esize) / pageBytes

/-- The trap values that an exception of element `k` of row `q` can report: the element's address, or
any of its byte addresses where it is misaligned and straddles a page (60_exceptions.md R427). -/
def Transfer.reported (t : Transfer) (q k : Nat) : List Nat :=
  if t.straddles q k then t.elemBytes q k else [t.addr q (k * t.esize)]

/-- The exceptions that element `k` of row `q` can raise, with their trap values
(60_exceptions.md R427). Under `MISALIGNED_POLICY = trap` a misaligned element raises that exception
before any other: DESIGN CHOICE, unsafe (log 30). -/
def State.elemFaults (s : State) (store : Bool) (t : Transfer) (q k : Nat) : List (Exc × Nat) :=
  let reports (e : Exc) : List (Exc × Nat) := (t.reported q k).map fun a => (e, a)
  let raised (r : Reach) (e : Exc) : List (Exc × Nat) :=
    if (t.elemBytes q k).any fun a => s.reach store a == r then reports e else []
  if s.performs t q k then
    raised .accessFault (if store then .storeAccess else .loadAccess) ++
      raised .pageFault (if store then .storePage else .loadPage)
  else reports (if store then .storeMisaligned else .loadMisaligned)

/-- What goes wrong in a row. -/
inductive Trouble where
  /-- A RESERVED access. -/
  | reserved (why : Reserved)
  /-- A memory exception in row `row`: the possible reports. -/
  | faults (row : Nat) (reports : List (Exc × Nat))
deriving DecidableEq, Repr

/-- What goes wrong in row `q`. The accesses of a row are unordered, so a RESERVED one is not
masked by an exception of the same row (log 18). -/
def State.rowTrouble (s : State) (store : Bool) (t : Transfer) (q : Nat) : Option Trouble :=
  match t.elems.findSome? (s.elemReserved store t q) with
  | some why => some (.reserved why)
  | none =>
    match t.elems.flatMap (s.elemFaults store t q) with
    | [] => none
    | r :: rest => some (.faults q (r :: rest))

/-- What goes wrong in the lowest row at or above `xmrstart` where something does
(60_exceptions.md R427, R431). -/
def State.trouble (s : State) (store : Bool) (t : Transfer) : Option Trouble :=
  (List.range' s.xmrstart.toNat (t.rows - s.xmrstart.toNat)).findSome? (s.rowTrouble store t)

/-- The report among the possible ones: which faulting element of the row is reported is free
(60_exceptions.md R427; log 10). -/
def pickReport (n : Nat) : List (Exc × Nat) → Exc × Nat
  | [] => (.illegal, 0)
  | r :: rest =>
    if rest.all (· == r) then r else (r :: rest).getD (Config.freeChoice n % (rest.length + 1)) r

/-- The trap of a load or store in row `row`: `xmrstart` holds the row, `MS` is Dirty, and the
exception is taken at the instruction itself (42_load_store.md R216). -/
def State.rowTrap (s : State) (row : Nat) (reports : List (Exc × Nat)) : State :=
  let r := pickReport s.draws reports
  let d := if reports.all (· == r) then s.draws else s.draws + 1
  (({ s with xmrstart := BitVec.ofNat 64 row, draws := d } : State).dirtyMS).takeException r.1
    (BitVec.ofNat 64 r.2)

/-! ### Loads -/

/-- Row `q` as memory gives it: byte `c` of the row is the byte at its address (10_state.md R33);
the bytes from `rowBytes` on are zero. -/
def State.rowFromMem (s : State) (t : Transfer) (q : Nat) : Row :=
  packRow ((List.range t.rowBytes).map fun c => s.byteAt (t.addr q c))

/-- Row `q` of the destination after a load: rows below `xmrstart` are kept, rows past the transfer
are zero (42_load_store.md R212, R215, decision D24). -/
def State.loadedRow (s : State) (t : Transfer) (md : MIdx) (q : Nat) : Row :=
  if q < s.xmrstart.toNat then s.groupRow md q
  else if q < t.rows then s.rowFromMem t q
  else 0

/-- `n` registers whose rows, counted through, are given. -/
def State.groupOf (s : State) (n : Nat) (f : Nat → Row) : List MReg :=
  (List.range n).map fun r => rowsOf s.cfg fun i => f (r * s.cfg.rows + i)

/-- A load that completes. -/
def State.loadDone (s : State) (t : Transfer) (n : Nat) (md : MIdx) : State :=
  s.setGroup md (s.groupOf n (s.loadedRow t md))

/-- The destination of a load that traps in row `row`: the rows before it are final, the others
hold free values (42_load_store.md R216 items 2 and 3; log 7). -/
def State.loadPart (s : State) (t : Transfer) (n : Nat) (md : MIdx) (row : Nat) : State :=
  let regs := s.groupOf n fun q =>
    if q < row then s.loadedRow t md q else Config.freeRow (s.draws + q)
  { s.setGroup md regs with draws := s.draws + n * s.cfg.rows }

/-- The accesses of a load and what follows them. -/
def State.runLoad (s : State) (word : BitVec 32) (t : Transfer) (n : Nat) (md : MIdx) :
    Host.Outcome State Fault Refusal :=
  match s.trouble false t with
  | some (.reserved why) => s.stop word (.reserved why)
  | some (.faults row reports) => .next ((s.loadPart t n md row).rowTrap row reports)
  | none => .next (s.loadDone t n md).finish

/-! ### Stores -/

/-- The bytes that row `q` of a store writes, with their addresses. -/
def State.rowCells (s : State) (t : Transfer) (ms3 : MIdx) (q : Nat) : List Host.Cell :=
  (List.range t.rowBytes).map fun c => (t.addr q c, elem 8 (s.groupRow ms3 q) c)

/-- Byte `c` of row `q` belongs to an access that raises no exception and is not RESERVED: the whole
element, or the byte itself where a misaligned element is split. That an access of the trap row or a
later row which is itself RESERVED (misaligned under `refuse`, or in memory with side effects) has not
been performed is a DESIGN CHOICE, unsafe, as is that a faulting one has not (log 8). -/
def State.mayStore (s : State) (t : Transfer) (q c : Nat) : Bool :=
  let k := c / t.esize
  let bytes := if t.aligned q k then t.elemBytes q k else [t.addr q c]
  s.performs t q k && bytes.all fun a => s.reach true a == .ok

/-- The bytes of row `q` that a store which traps may have written: those of accesses that raise
no exception and are not RESERVED (42_load_store.md R216 item 3; log 8). -/
def State.rowMaybe (s : State) (t : Transfer) (ms3 : MIdx) (q : Nat) : List Host.Cell :=
  ((List.range t.rowBytes).filter (s.mayStore t q)).map fun c =>
    (t.addr q c, elem 8 (s.groupRow ms3 q) c)

/-- The values that the byte at `a` can hold afterwards: one of those that are written there
(20_memory.md R86), or what it held where the writes may not have been performed. -/
def byteOptions (old : Byte) (sure maybe : List Host.Cell) (a : Nat) : List Byte :=
  let vs := (sure.filter fun w => w.1 == a).map fun w => w.2
  (if vs.isEmpty then [old] else vs) ++ (maybe.filter fun w => w.1 == a).map fun w => w.2

/-- All values of a list are the same. -/
def allSame : List Byte → Bool
  | [] => true
  | v :: rest => rest.all (· == v)

/-- One of several values, by the free choice of number `n` where they differ (logs 8 and 9). -/
def pickByte (n : Nat) : List Byte → Byte
  | [] => unlisted
  | v :: rest =>
    if allSame (v :: rest) then v
    else (v :: rest).getD (Config.freeChoice n % (rest.length + 1)) v

/-- Addresses rise strictly, so that no byte is written twice. -/
def risingFrom : Nat → List Host.Cell → Bool
  | _, [] => true
  | lo, w :: rest => Nat.ble lo w.1 && risingFrom (w.1 + 1) rest

/-- Every byte is certainly written, and none twice. This only shortens the evaluation of `settled`
and `openBytes` (Laws/LoadStore.lean, `settled_of_plain` and `openBytes_of_plain`). -/
def plainWrites (sure maybe : List Host.Cell) : Bool := maybe.isEmpty && risingFrom 0 sure

/-- The writes that a store performs, each byte with the value it ends up with. -/
def State.settled (s : State) (sure maybe : List Host.Cell) : List Host.Cell :=
  if plainWrites sure maybe then sure
  else
    (sure ++ maybe).map fun w =>
      (w.1, pickByte (s.draws + w.1) (byteOptions (s.byteAt w.1) sure maybe w.1))

/-- Some byte ends up with a free one of several values. -/
def State.openBytes (s : State) (sure maybe : List Host.Cell) : Bool :=
  !plainWrites sure maybe &&
    (sure ++ maybe).any fun w => !allSame (byteOptions (s.byteAt w.1) sure maybe w.1)

/-- Bytes are stored; those that a fetch may still see as they were are kept in `stale`
(20_memory.md R94; log 11). -/
def State.storeBytes (s : State) (sure maybe : List Host.Cell) : State :=
  let ws := s.settled sure maybe
  let old := (ws.filter fun w => s.byteAt w.1 != w.2).map fun w => (w.1, s.byteAt w.1)
  { s with
    mem := s.mem.writeAll ws
    stale := old ++ s.stale
    draws := if s.openBytes sure maybe then s.draws + 2 ^ s.cfg.xlen.bits else s.draws }

/-- The bytes of rows `first` to `last - 1`. -/
def State.cellsOf (f : Nat → List Host.Cell) (first last : Nat) : List Host.Cell :=
  (List.range' first (last - first)).flatMap f

/-- A store that completes (42_load_store.md R213, R215). -/
def State.storeDone (s : State) (t : Transfer) (ms3 : MIdx) : State :=
  s.storeBytes (State.cellsOf (s.rowCells t ms3) s.xmrstart.toNat t.rows) []

/-- Memory after a store that traps in row `row` (42_load_store.md R216; log 8). -/
def State.storePart (s : State) (t : Transfer) (ms3 : MIdx) (row : Nat) : State :=
  s.storeBytes (State.cellsOf (s.rowCells t ms3) s.xmrstart.toNat row)
    (State.cellsOf (s.rowMaybe t ms3) row t.rows)

/-- The accesses of a store and what follows them. -/
def State.runStore (s : State) (word : BitVec 32) (t : Transfer) (ms3 : MIdx) :
    Host.Outcome State Fault Refusal :=
  match s.trouble true t with
  | some (.reserved why) => s.stop word (.reserved why)
  | some (.faults row reports) => .next ((s.storePart t ms3 row).rowTrap row reports)
  | none => .next (s.storeDone t ms3).finish

/-! ### The four kinds of transfer -/

/-- `xmrstart` names a row of the transfer, or is zero (42_load_store.md R212, decision D24). -/
def State.startOk (s : State) (rows : Nat) : Bool :=
  s.xmrstart == 0 || decide (s.xmrstart.toNat < rows)

/-- The checks of a normal or stream form (42_load_store.md R212, R213). -/
def State.shapedChecks (s : State) (esize : Nat) : List (Bool × Stop) :=
  [s.offGate, needs (s.validPW (8 * esize)) .shape, needs (s.startOk s.sM) .startRow]

/-- The checks of a whole-register form (42_load_store.md R215). -/
def State.wholeChecks (s : State) (n : Nat) (reg : MIdx) : List (Bool × Stop) :=
  [s.offGate, needs (groupOk n reg) .registerAlign, needs (s.startOk (n * s.cfg.rows)) .startRow]

/-- `LOAD(esize)` (42_load_store.md R212). -/
def State.load (s : State) (word : BitVec 32) (esize : Nat) (md : MIdx) (rs2 rs1 : XIdx) :
    Host.Outcome State Fault Refusal :=
  s.guard word (s.shapedChecks esize) (s.runLoad word (s.shaped esize rs1 rs2) 1 md)

/-- `STORE(esize)` (42_load_store.md R213). -/
def State.store (s : State) (word : BitVec 32) (esize : Nat) (ms3 : MIdx) (rs2 rs1 : XIdx) :
    Host.Outcome State Fault Refusal :=
  s.guard word (s.shapedChecks esize) (s.runStore word (s.shaped esize rs1 rs2) ms3)

/-- `WLOAD(n, esize)` (42_load_store.md R215). -/
def State.wholeLoad (s : State) (word : BitVec 32) (n esize : Nat) (md : MIdx) (rs1 : XIdx) :
    Host.Outcome State Fault Refusal :=
  s.guard word (s.wholeChecks n md) (s.runLoad word (s.whole n esize rs1) n md)

/-- `WSTORE(n, esize)` (42_load_store.md R215). -/
def State.wholeStore (s : State) (word : BitVec 32) (n esize : Nat) (ms3 : MIdx) (rs1 : XIdx) :
    Host.Outcome State Fault Refusal :=
  s.guard word (s.wholeChecks n ms3) (s.runStore word (s.whole n esize rs1) ms3)

/-! ### The instructions -/

/-- `mldb` (R220). -/
def execMldb (md : MIdx) (rs2 rs1 : XIdx) (s : State) :
    Host.Outcome State Fault Refusal :=
  s.load (encode (.mldb md rs2 rs1)) 1 md rs2 rs1

/-- `mldh` (R221). -/
def execMldh (md : MIdx) (rs2 rs1 : XIdx) (s : State) :
    Host.Outcome State Fault Refusal :=
  s.load (encode (.mldh md rs2 rs1)) 2 md rs2 rs1

/-- `mldw` (R222). -/
def execMldw (md : MIdx) (rs2 rs1 : XIdx) (s : State) :
    Host.Outcome State Fault Refusal :=
  s.load (encode (.mldw md rs2 rs1)) 4 md rs2 rs1

/-- `mldd` (R223). -/
def execMldd (md : MIdx) (rs2 rs1 : XIdx) (s : State) :
    Host.Outcome State Fault Refusal :=
  s.load (encode (.mldd md rs2 rs1)) 8 md rs2 rs1

/-- `mstb` (R224). -/
def execMstb (ms3 : MIdx) (rs2 rs1 : XIdx) (s : State) :
    Host.Outcome State Fault Refusal :=
  s.store (encode (.mstb ms3 rs2 rs1)) 1 ms3 rs2 rs1

/-- `msth` (R225). -/
def execMsth (ms3 : MIdx) (rs2 rs1 : XIdx) (s : State) :
    Host.Outcome State Fault Refusal :=
  s.store (encode (.msth ms3 rs2 rs1)) 2 ms3 rs2 rs1

/-- `mstw` (R226). -/
def execMstw (ms3 : MIdx) (rs2 rs1 : XIdx) (s : State) :
    Host.Outcome State Fault Refusal :=
  s.store (encode (.mstw ms3 rs2 rs1)) 4 ms3 rs2 rs1

/-- `mstd` (R227). -/
def execMstd (ms3 : MIdx) (rs2 rs1 : XIdx) (s : State) :
    Host.Outcome State Fault Refusal :=
  s.store (encode (.mstd ms3 rs2 rs1)) 8 ms3 rs2 rs1

/-- `msldb` (R228). -/
def execMsldb (md : MIdx) (rs2 rs1 : XIdx) (s : State) :
    Host.Outcome State Fault Refusal :=
  s.load (encode (.msldb md rs2 rs1)) 1 md rs2 rs1

/-- `msldh` (R229). -/
def execMsldh (md : MIdx) (rs2 rs1 : XIdx) (s : State) :
    Host.Outcome State Fault Refusal :=
  s.load (encode (.msldh md rs2 rs1)) 2 md rs2 rs1

/-- `msldw` (R230). -/
def execMsldw (md : MIdx) (rs2 rs1 : XIdx) (s : State) :
    Host.Outcome State Fault Refusal :=
  s.load (encode (.msldw md rs2 rs1)) 4 md rs2 rs1

/-- `msldd` (R231). -/
def execMsldd (md : MIdx) (rs2 rs1 : XIdx) (s : State) :
    Host.Outcome State Fault Refusal :=
  s.load (encode (.msldd md rs2 rs1)) 8 md rs2 rs1

/-- `msstb` (R232). -/
def execMsstb (ms3 : MIdx) (rs2 rs1 : XIdx) (s : State) :
    Host.Outcome State Fault Refusal :=
  s.store (encode (.msstb ms3 rs2 rs1)) 1 ms3 rs2 rs1

/-- `mssth` (R233). -/
def execMssth (ms3 : MIdx) (rs2 rs1 : XIdx) (s : State) :
    Host.Outcome State Fault Refusal :=
  s.store (encode (.mssth ms3 rs2 rs1)) 2 ms3 rs2 rs1

/-- `msstw` (R234). -/
def execMsstw (ms3 : MIdx) (rs2 rs1 : XIdx) (s : State) :
    Host.Outcome State Fault Refusal :=
  s.store (encode (.msstw ms3 rs2 rs1)) 4 ms3 rs2 rs1

/-- `msstd` (R235). -/
def execMsstd (ms3 : MIdx) (rs2 rs1 : XIdx) (s : State) :
    Host.Outcome State Fault Refusal :=
  s.store (encode (.msstd ms3 rs2 rs1)) 8 ms3 rs2 rs1

/-- `mld1mb` (R236). -/
def execMld1mb (md : MIdx) (rs1 : XIdx) (s : State) :
    Host.Outcome State Fault Refusal :=
  s.wholeLoad (encode (.mld1mb md rs1)) 1 1 md rs1

/-- `mld1mh` (R237). -/
def execMld1mh (md : MIdx) (rs1 : XIdx) (s : State) :
    Host.Outcome State Fault Refusal :=
  s.wholeLoad (encode (.mld1mh md rs1)) 1 2 md rs1

/-- `mld1mw` (R238). -/
def execMld1mw (md : MIdx) (rs1 : XIdx) (s : State) :
    Host.Outcome State Fault Refusal :=
  s.wholeLoad (encode (.mld1mw md rs1)) 1 4 md rs1

/-- `mld1md` (R239). -/
def execMld1md (md : MIdx) (rs1 : XIdx) (s : State) :
    Host.Outcome State Fault Refusal :=
  s.wholeLoad (encode (.mld1md md rs1)) 1 8 md rs1

/-- `mld2mb` (R240). -/
def execMld2mb (md : MIdx) (rs1 : XIdx) (s : State) :
    Host.Outcome State Fault Refusal :=
  s.wholeLoad (encode (.mld2mb md rs1)) 2 1 md rs1

/-- `mld2mh` (R241). -/
def execMld2mh (md : MIdx) (rs1 : XIdx) (s : State) :
    Host.Outcome State Fault Refusal :=
  s.wholeLoad (encode (.mld2mh md rs1)) 2 2 md rs1

/-- `mld2mw` (R242). -/
def execMld2mw (md : MIdx) (rs1 : XIdx) (s : State) :
    Host.Outcome State Fault Refusal :=
  s.wholeLoad (encode (.mld2mw md rs1)) 2 4 md rs1

/-- `mld2md` (R243). -/
def execMld2md (md : MIdx) (rs1 : XIdx) (s : State) :
    Host.Outcome State Fault Refusal :=
  s.wholeLoad (encode (.mld2md md rs1)) 2 8 md rs1

/-- `mld4mb` (R244). -/
def execMld4mb (md : MIdx) (rs1 : XIdx) (s : State) :
    Host.Outcome State Fault Refusal :=
  s.wholeLoad (encode (.mld4mb md rs1)) 4 1 md rs1

/-- `mld4mh` (R245). -/
def execMld4mh (md : MIdx) (rs1 : XIdx) (s : State) :
    Host.Outcome State Fault Refusal :=
  s.wholeLoad (encode (.mld4mh md rs1)) 4 2 md rs1

/-- `mld4mw` (R246). -/
def execMld4mw (md : MIdx) (rs1 : XIdx) (s : State) :
    Host.Outcome State Fault Refusal :=
  s.wholeLoad (encode (.mld4mw md rs1)) 4 4 md rs1

/-- `mld4md` (R247). -/
def execMld4md (md : MIdx) (rs1 : XIdx) (s : State) :
    Host.Outcome State Fault Refusal :=
  s.wholeLoad (encode (.mld4md md rs1)) 4 8 md rs1

/-- `mld8mb` (R248). -/
def execMld8mb (md : MIdx) (rs1 : XIdx) (s : State) :
    Host.Outcome State Fault Refusal :=
  s.wholeLoad (encode (.mld8mb md rs1)) 8 1 md rs1

/-- `mld8mh` (R249). -/
def execMld8mh (md : MIdx) (rs1 : XIdx) (s : State) :
    Host.Outcome State Fault Refusal :=
  s.wholeLoad (encode (.mld8mh md rs1)) 8 2 md rs1

/-- `mld8mw` (R250). -/
def execMld8mw (md : MIdx) (rs1 : XIdx) (s : State) :
    Host.Outcome State Fault Refusal :=
  s.wholeLoad (encode (.mld8mw md rs1)) 8 4 md rs1

/-- `mld8md` (R251). -/
def execMld8md (md : MIdx) (rs1 : XIdx) (s : State) :
    Host.Outcome State Fault Refusal :=
  s.wholeLoad (encode (.mld8md md rs1)) 8 8 md rs1

/-- `mst1mb` (R252). -/
def execMst1mb (ms3 : MIdx) (rs1 : XIdx) (s : State) :
    Host.Outcome State Fault Refusal :=
  s.wholeStore (encode (.mst1mb ms3 rs1)) 1 1 ms3 rs1

/-- `mst1mh` (R253). -/
def execMst1mh (ms3 : MIdx) (rs1 : XIdx) (s : State) :
    Host.Outcome State Fault Refusal :=
  s.wholeStore (encode (.mst1mh ms3 rs1)) 1 2 ms3 rs1

/-- `mst1mw` (R254). -/
def execMst1mw (ms3 : MIdx) (rs1 : XIdx) (s : State) :
    Host.Outcome State Fault Refusal :=
  s.wholeStore (encode (.mst1mw ms3 rs1)) 1 4 ms3 rs1

/-- `mst1md` (R255). -/
def execMst1md (ms3 : MIdx) (rs1 : XIdx) (s : State) :
    Host.Outcome State Fault Refusal :=
  s.wholeStore (encode (.mst1md ms3 rs1)) 1 8 ms3 rs1

/-- `mst2mb` (R256). -/
def execMst2mb (ms3 : MIdx) (rs1 : XIdx) (s : State) :
    Host.Outcome State Fault Refusal :=
  s.wholeStore (encode (.mst2mb ms3 rs1)) 2 1 ms3 rs1

/-- `mst2mh` (R257). -/
def execMst2mh (ms3 : MIdx) (rs1 : XIdx) (s : State) :
    Host.Outcome State Fault Refusal :=
  s.wholeStore (encode (.mst2mh ms3 rs1)) 2 2 ms3 rs1

/-- `mst2mw` (R258). -/
def execMst2mw (ms3 : MIdx) (rs1 : XIdx) (s : State) :
    Host.Outcome State Fault Refusal :=
  s.wholeStore (encode (.mst2mw ms3 rs1)) 2 4 ms3 rs1

/-- `mst2md` (R259). -/
def execMst2md (ms3 : MIdx) (rs1 : XIdx) (s : State) :
    Host.Outcome State Fault Refusal :=
  s.wholeStore (encode (.mst2md ms3 rs1)) 2 8 ms3 rs1

/-- `mst4mb` (R260). -/
def execMst4mb (ms3 : MIdx) (rs1 : XIdx) (s : State) :
    Host.Outcome State Fault Refusal :=
  s.wholeStore (encode (.mst4mb ms3 rs1)) 4 1 ms3 rs1

/-- `mst4mh` (R261). -/
def execMst4mh (ms3 : MIdx) (rs1 : XIdx) (s : State) :
    Host.Outcome State Fault Refusal :=
  s.wholeStore (encode (.mst4mh ms3 rs1)) 4 2 ms3 rs1

/-- `mst4mw` (R262). -/
def execMst4mw (ms3 : MIdx) (rs1 : XIdx) (s : State) :
    Host.Outcome State Fault Refusal :=
  s.wholeStore (encode (.mst4mw ms3 rs1)) 4 4 ms3 rs1

/-- `mst4md` (R263). -/
def execMst4md (ms3 : MIdx) (rs1 : XIdx) (s : State) :
    Host.Outcome State Fault Refusal :=
  s.wholeStore (encode (.mst4md ms3 rs1)) 4 8 ms3 rs1

/-- `mst8mb` (R264). -/
def execMst8mb (ms3 : MIdx) (rs1 : XIdx) (s : State) :
    Host.Outcome State Fault Refusal :=
  s.wholeStore (encode (.mst8mb ms3 rs1)) 8 1 ms3 rs1

/-- `mst8mh` (R265). -/
def execMst8mh (ms3 : MIdx) (rs1 : XIdx) (s : State) :
    Host.Outcome State Fault Refusal :=
  s.wholeStore (encode (.mst8mh ms3 rs1)) 8 2 ms3 rs1

/-- `mst8mw` (R266). -/
def execMst8mw (ms3 : MIdx) (rs1 : XIdx) (s : State) :
    Host.Outcome State Fault Refusal :=
  s.wholeStore (encode (.mst8mw ms3 rs1)) 8 4 ms3 rs1

/-- `mst8md` (R267). -/
def execMst8md (ms3 : MIdx) (rs1 : XIdx) (s : State) :
    Host.Outcome State Fault Refusal :=
  s.wholeStore (encode (.mst8md ms3 rs1)) 8 8 ms3 rs1

end Sys2Proof.Machine
end

