-- ==== Sys2Proof/Machine/Move.lean ====
section
/-! DEFINITION. Matrix moves (43_move.md R280 to R286). They read no matrix size. -/

namespace Sys2Proof.Machine

/-- The checks that every move makes (43_move.md R280). -/
def State.moveChecks (s : State) : List (Bool × Stop) := [s.offGate, s.startGate]

/-- Every row of `M[md]` becomes row `i` of `M[ms1]` (43_move.md R284). -/
def State.moveRow (s : State) (word : BitVec 32) (md ms1 : MIdx) (i : Nat) :
    Host.Outcome State Fault Refusal :=
  s.guard word (s.moveChecks ++ [needs (s.rowExists i) .rowIndex])
    (.next (s.setM md (rowsOf s.cfg fun _ => s.mrow ms1 i)).finish)

/-- The register filled with copies of the `XLEN`-bit scalar (43_move.md R286, decision D30). -/
def State.scalarFill (s : State) (rs1 : XcIdx) : MReg :=
  let w := s.cfg.xlen.bits
  rowsOf s.cfg fun _ =>
    packRow (List.replicate (s.cfg.mlen.bits / w) ((s.xcval rs1).setWidth w))

/-- `mmov.mm` (R283). -/
def execMmovMm (md ms1 : MIdx) (s : State) :
    Host.Outcome State Fault Refusal :=
  s.guard (encode (.mmovMm md ms1)) s.moveChecks (.next (s.setM md (rowsOf s.cfg (s.mrow ms1))).finish)

/-- `mmov.mv.x` (R284). -/
def execMmovMvX (md ms1 : MIdx) (rs1 : XcIdx) (s : State) :
    Host.Outcome State Fault Refusal :=
  s.moveRow (encode (.mmovMvX md ms1 rs1)) md ms1 (s.rowX rs1)

/-- `mmov.mv.i` (R285). -/
def execMmovMvI (md ms1 : MIdx) (uimm3 : BitVec 3) (s : State) :
    Host.Outcome State Fault Refusal :=
  s.moveRow (encode (.mmovMvI md ms1 uimm3)) md ms1 uimm3.toNat

/-- `mmov.mx` (R286). -/
def execMmovMx (md : MIdx) (rs1 : XcIdx) (s : State) :
    Host.Outcome State Fault Refusal :=
  s.guard (encode (.mmovMx md rs1)) s.moveChecks (.next (s.setM md (s.scalarFill rs1)).finish)

end Sys2Proof.Machine
end

