-- ==== Sys2Proof/Machine/PointwiseArith.lean ====
section
/-! DEFINITION. Pointwise add, subtract, multiply (45_pointwise_arith.md R310 to R351). -/

namespace Sys2Proof.Machine

/-- `madd`: the sum modulo `2^W` (45_pointwise_arith.md R314). -/
def maddOp {w : Nat} (a b : BitVec w) : BitVec w := a + b

/-- `msub`: the difference modulo `2^W`, `ms2` the minuend (45_pointwise_arith.md R314). -/
def msubOp {w : Nat} (a b : BitVec w) : BitVec w := a - b

/-- `mmul`: the low half of the product (45_pointwise_arith.md R314). -/
def mmulOp {w : Nat} (a b : BitVec w) : BitVec w := a * b

/-- `mmulh`: the high half of the signed product (45_pointwise_arith.md R314, decision D34). -/
def mmulhOp {w : Nat} (a b : BitVec w) : BitVec w := BitVec.ofInt w (a.toInt * b.toInt / 2 ^ w)

/-- The checks of a pointwise instruction (45_pointwise_arith.md R313). -/
def State.pwChecks (s : State) (w bit : Nat) (b : Src2) : List (Bool × Stop) :=
  [s.offGate, s.featureGate bit, s.startGate, needs (b.rowOk s) .rowIndex,
    needs (s.validPW w) .shape]

/-- `PW(op, w, form)` (45_pointwise_arith.md R313). -/
def State.pointwise (s : State) (word : BitVec 32) (w bit : Nat)
    (op : BitVec w → BitVec w → BitVec w) (md ms2 : MIdx) (b : Src2) :
    Host.Outcome State Fault Refusal :=
  s.guard word (s.pwChecks w bit b)
    (.next (s.setM md (tiled s.cfg s.sM (s.kElems w) w fun i j =>
      op (s.el w ms2 i j) (b.value s w i j))).finish)

/-- `madd.s.mm` (R320). -/
def execMaddSMm (md ms2 ms1 : MIdx) (s : State) :
    Host.Outcome State Fault Refusal :=
  s.pointwise (encode (.maddSMm md ms2 ms1)) 32 7 maddOp md ms2 (.mm ms1)

/-- `madd.s.mv.x` (R321). -/
def execMaddSMvX (md ms2 ms1 : MIdx) (rs1 : XcIdx) (s : State) :
    Host.Outcome State Fault Refusal :=
  s.pointwise (encode (.maddSMvX md ms2 ms1 rs1)) 32 7 maddOp md ms2 (.mvx ms1 rs1)

/-- `madd.s.mv.i` (R322). -/
def execMaddSMvI (md ms2 ms1 : MIdx) (uimm3 : BitVec 3) (s : State) :
    Host.Outcome State Fault Refusal :=
  s.pointwise (encode (.maddSMvI md ms2 ms1 uimm3)) 32 7 maddOp md ms2 (.mvi ms1 uimm3)

/-- `madd.s.mx` (R323). -/
def execMaddSMx (md ms2 : MIdx) (rs1 : XcIdx) (s : State) :
    Host.Outcome State Fault Refusal :=
  s.pointwise (encode (.maddSMx md ms2 rs1)) 32 7 maddOp md ms2 (.mx rs1)

/-- `madd.d.mm` (R324). -/
def execMaddDMm (md ms2 ms1 : MIdx) (s : State) :
    Host.Outcome State Fault Refusal :=
  s.pointwise (encode (.maddDMm md ms2 ms1)) 64 6 maddOp md ms2 (.mm ms1)

/-- `madd.d.mv.x` (R325). -/
def execMaddDMvX (md ms2 ms1 : MIdx) (rs1 : XcIdx) (s : State) :
    Host.Outcome State Fault Refusal :=
  s.pointwise (encode (.maddDMvX md ms2 ms1 rs1)) 64 6 maddOp md ms2 (.mvx ms1 rs1)

/-- `madd.d.mv.i` (R326). -/
def execMaddDMvI (md ms2 ms1 : MIdx) (uimm3 : BitVec 3) (s : State) :
    Host.Outcome State Fault Refusal :=
  s.pointwise (encode (.maddDMvI md ms2 ms1 uimm3)) 64 6 maddOp md ms2 (.mvi ms1 uimm3)

/-- `madd.d.mx` (R327). -/
def execMaddDMx (md ms2 : MIdx) (rs1 : XcIdx) (s : State) :
    Host.Outcome State Fault Refusal :=
  s.pointwise (encode (.maddDMx md ms2 rs1)) 64 6 maddOp md ms2 (.mx rs1)

/-- `msub.s.mm` (R328). -/
def execMsubSMm (md ms2 ms1 : MIdx) (s : State) :
    Host.Outcome State Fault Refusal :=
  s.pointwise (encode (.msubSMm md ms2 ms1)) 32 7 msubOp md ms2 (.mm ms1)

/-- `msub.s.mv.x` (R329). -/
def execMsubSMvX (md ms2 ms1 : MIdx) (rs1 : XcIdx) (s : State) :
    Host.Outcome State Fault Refusal :=
  s.pointwise (encode (.msubSMvX md ms2 ms1 rs1)) 32 7 msubOp md ms2 (.mvx ms1 rs1)

/-- `msub.s.mv.i` (R330). -/
def execMsubSMvI (md ms2 ms1 : MIdx) (uimm3 : BitVec 3) (s : State) :
    Host.Outcome State Fault Refusal :=
  s.pointwise (encode (.msubSMvI md ms2 ms1 uimm3)) 32 7 msubOp md ms2 (.mvi ms1 uimm3)

/-- `msub.s.mx` (R331). -/
def execMsubSMx (md ms2 : MIdx) (rs1 : XcIdx) (s : State) :
    Host.Outcome State Fault Refusal :=
  s.pointwise (encode (.msubSMx md ms2 rs1)) 32 7 msubOp md ms2 (.mx rs1)

/-- `msub.d.mm` (R332). -/
def execMsubDMm (md ms2 ms1 : MIdx) (s : State) :
    Host.Outcome State Fault Refusal :=
  s.pointwise (encode (.msubDMm md ms2 ms1)) 64 6 msubOp md ms2 (.mm ms1)

/-- `msub.d.mv.x` (R333). -/
def execMsubDMvX (md ms2 ms1 : MIdx) (rs1 : XcIdx) (s : State) :
    Host.Outcome State Fault Refusal :=
  s.pointwise (encode (.msubDMvX md ms2 ms1 rs1)) 64 6 msubOp md ms2 (.mvx ms1 rs1)

/-- `msub.d.mv.i` (R334). -/
def execMsubDMvI (md ms2 ms1 : MIdx) (uimm3 : BitVec 3) (s : State) :
    Host.Outcome State Fault Refusal :=
  s.pointwise (encode (.msubDMvI md ms2 ms1 uimm3)) 64 6 msubOp md ms2 (.mvi ms1 uimm3)

/-- `msub.d.mx` (R335). -/
def execMsubDMx (md ms2 : MIdx) (rs1 : XcIdx) (s : State) :
    Host.Outcome State Fault Refusal :=
  s.pointwise (encode (.msubDMx md ms2 rs1)) 64 6 msubOp md ms2 (.mx rs1)

/-- `mmul.s.mm` (R336). -/
def execMmulSMm (md ms2 ms1 : MIdx) (s : State) :
    Host.Outcome State Fault Refusal :=
  s.pointwise (encode (.mmulSMm md ms2 ms1)) 32 7 mmulOp md ms2 (.mm ms1)

/-- `mmul.s.mv.x` (R337). -/
def execMmulSMvX (md ms2 ms1 : MIdx) (rs1 : XcIdx) (s : State) :
    Host.Outcome State Fault Refusal :=
  s.pointwise (encode (.mmulSMvX md ms2 ms1 rs1)) 32 7 mmulOp md ms2 (.mvx ms1 rs1)

/-- `mmul.s.mv.i` (R338). -/
def execMmulSMvI (md ms2 ms1 : MIdx) (uimm3 : BitVec 3) (s : State) :
    Host.Outcome State Fault Refusal :=
  s.pointwise (encode (.mmulSMvI md ms2 ms1 uimm3)) 32 7 mmulOp md ms2 (.mvi ms1 uimm3)

/-- `mmul.s.mx` (R339). -/
def execMmulSMx (md ms2 : MIdx) (rs1 : XcIdx) (s : State) :
    Host.Outcome State Fault Refusal :=
  s.pointwise (encode (.mmulSMx md ms2 rs1)) 32 7 mmulOp md ms2 (.mx rs1)

/-- `mmul.d.mm` (R340). -/
def execMmulDMm (md ms2 ms1 : MIdx) (s : State) :
    Host.Outcome State Fault Refusal :=
  s.pointwise (encode (.mmulDMm md ms2 ms1)) 64 6 mmulOp md ms2 (.mm ms1)

/-- `mmul.d.mv.x` (R341). -/
def execMmulDMvX (md ms2 ms1 : MIdx) (rs1 : XcIdx) (s : State) :
    Host.Outcome State Fault Refusal :=
  s.pointwise (encode (.mmulDMvX md ms2 ms1 rs1)) 64 6 mmulOp md ms2 (.mvx ms1 rs1)

/-- `mmul.d.mv.i` (R342). -/
def execMmulDMvI (md ms2 ms1 : MIdx) (uimm3 : BitVec 3) (s : State) :
    Host.Outcome State Fault Refusal :=
  s.pointwise (encode (.mmulDMvI md ms2 ms1 uimm3)) 64 6 mmulOp md ms2 (.mvi ms1 uimm3)

/-- `mmul.d.mx` (R343). -/
def execMmulDMx (md ms2 : MIdx) (rs1 : XcIdx) (s : State) :
    Host.Outcome State Fault Refusal :=
  s.pointwise (encode (.mmulDMx md ms2 rs1)) 64 6 mmulOp md ms2 (.mx rs1)

/-- `mmulh.s.mm` (R344). -/
def execMmulhSMm (md ms2 ms1 : MIdx) (s : State) :
    Host.Outcome State Fault Refusal :=
  s.pointwise (encode (.mmulhSMm md ms2 ms1)) 32 7 mmulhOp md ms2 (.mm ms1)

/-- `mmulh.s.mv.x` (R345). -/
def execMmulhSMvX (md ms2 ms1 : MIdx) (rs1 : XcIdx) (s : State) :
    Host.Outcome State Fault Refusal :=
  s.pointwise (encode (.mmulhSMvX md ms2 ms1 rs1)) 32 7 mmulhOp md ms2 (.mvx ms1 rs1)

/-- `mmulh.s.mv.i` (R346). -/
def execMmulhSMvI (md ms2 ms1 : MIdx) (uimm3 : BitVec 3) (s : State) :
    Host.Outcome State Fault Refusal :=
  s.pointwise (encode (.mmulhSMvI md ms2 ms1 uimm3)) 32 7 mmulhOp md ms2 (.mvi ms1 uimm3)

/-- `mmulh.s.mx` (R347). -/
def execMmulhSMx (md ms2 : MIdx) (rs1 : XcIdx) (s : State) :
    Host.Outcome State Fault Refusal :=
  s.pointwise (encode (.mmulhSMx md ms2 rs1)) 32 7 mmulhOp md ms2 (.mx rs1)

/-- `mmulh.d.mm` (R348). -/
def execMmulhDMm (md ms2 ms1 : MIdx) (s : State) :
    Host.Outcome State Fault Refusal :=
  s.pointwise (encode (.mmulhDMm md ms2 ms1)) 64 6 mmulhOp md ms2 (.mm ms1)

/-- `mmulh.d.mv.x` (R349). -/
def execMmulhDMvX (md ms2 ms1 : MIdx) (rs1 : XcIdx) (s : State) :
    Host.Outcome State Fault Refusal :=
  s.pointwise (encode (.mmulhDMvX md ms2 ms1 rs1)) 64 6 mmulhOp md ms2 (.mvx ms1 rs1)

/-- `mmulh.d.mv.i` (R350). -/
def execMmulhDMvI (md ms2 ms1 : MIdx) (uimm3 : BitVec 3) (s : State) :
    Host.Outcome State Fault Refusal :=
  s.pointwise (encode (.mmulhDMvI md ms2 ms1 uimm3)) 64 6 mmulhOp md ms2 (.mvi ms1 uimm3)

/-- `mmulh.d.mx` (R351). -/
def execMmulhDMx (md ms2 : MIdx) (rs1 : XcIdx) (s : State) :
    Host.Outcome State Fault Refusal :=
  s.pointwise (encode (.mmulhDMx md ms2 rs1)) 64 6 mmulhOp md ms2 (.mx rs1)

end Sys2Proof.Machine
end

