-- ==== Sys2Proof/Machine/ShiftClip.lean ====
section
/-! DEFINITION. Rounding shift and narrowing clip (46_pointwise_shift_clip.md R360 to R393). -/

namespace Sys2Proof.Machine

/-- The shift amount: the low 5 bits of the second operand for `w = 32`, the low 6 for `w = 64`
(46_pointwise_shift_clip.md R361). -/
def State.shiftAmount (s : State) (w : Nat) (b : Src2) (i j : Nat) : Nat :=
  (b.value s w i j).toNat % w

/-- `msra` on one element (46_pointwise_shift_clip.md R363). -/
def msraOp {w : Nat} (rm : BitVec 2) (a : BitVec w) (d : Nat) : BitVec w :=
  BitVec.ofInt w (roundoffSigned rm a d)

/-- `mn4clip` on one element: the narrow result and whether it saturates
(46_pointwise_shift_clip.md R363). -/
def clipSignedOp {w : Nat} (rm : BitVec 2) (a : BitVec w) (d : Nat) : BitVec (w / 4) × Bool :=
  clipSigned (w / 4) (roundoffSigned rm a d)

/-- `mn4clipu` on one element (46_pointwise_shift_clip.md R363). -/
def clipUnsignedOp {w : Nat} (rm : BitVec 2) (a : BitVec w) (d : Nat) : BitVec (w / 4) × Bool :=
  clipUnsigned (w / 4) (roundoffUnsigned rm a d)

/-- `SH(msra, w, form)` (46_pointwise_shift_clip.md R365). -/
def State.shiftRight (s : State) (word : BitVec 32) (w bit : Nat) (md ms2 : MIdx) (b : Src2) :
    Host.Outcome State Fault Refusal :=
  s.guard word (s.pwChecks w bit b)
    (.next (s.setM md (tiled s.cfg s.sM (s.kElems w) w fun i j =>
      msraOp s.xmxrm (s.el w ms2 i j) (s.shiftAmount w b i j))).finish)

/-- Some active element saturates (46_pointwise_shift_clip.md R364). -/
def State.anySat (s : State) (w : Nat)
    (clip : BitVec 2 → BitVec w → Nat → BitVec (w / 4) × Bool) (ms2 : MIdx) (b : Src2) : Bool :=
  (List.range s.sM).any fun i => (List.range (s.kElems w)).any fun j =>
    (clip s.xmxrm (s.el w ms2 i j) (s.shiftAmount w b i j)).2

/-- `SH(mn4clip, w, form)` and `SH(mn4clipu, w, form)`: the results are packed at `w/4` bits
(46_pointwise_shift_clip.md R362, R365, decision D36). -/
def State.narrowClip (s : State) (word : BitVec 32) (w bit : Nat)
    (clip : BitVec 2 → BitVec w → Nat → BitVec (w / 4) × Bool) (md ms2 : MIdx) (b : Src2) :
    Host.Outcome State Fault Refusal :=
  s.guard word (s.pwChecks w bit b)
    (.next ((s.setM md (tiled s.cfg s.sM (s.kElems w) (w / 4) fun i j =>
      (clip s.xmxrm (s.el w ms2 i j) (s.shiftAmount w b i j)).1)).saturate
        (s.anySat w clip ms2 b)).finish)

/-- `msra.s.mm` (R370). -/
def execMsraSMm (md ms2 ms1 : MIdx) (s : State) :
    Host.Outcome State Fault Refusal :=
  s.shiftRight (encode (.msraSMm md ms2 ms1)) 32 7 md ms2 (.mm ms1)

/-- `msra.s.mv.x` (R371). -/
def execMsraSMvX (md ms2 ms1 : MIdx) (rs1 : XcIdx) (s : State) :
    Host.Outcome State Fault Refusal :=
  s.shiftRight (encode (.msraSMvX md ms2 ms1 rs1)) 32 7 md ms2 (.mvx ms1 rs1)

/-- `msra.s.mv.i` (R372). -/
def execMsraSMvI (md ms2 ms1 : MIdx) (uimm3 : BitVec 3) (s : State) :
    Host.Outcome State Fault Refusal :=
  s.shiftRight (encode (.msraSMvI md ms2 ms1 uimm3)) 32 7 md ms2 (.mvi ms1 uimm3)

/-- `msra.s.mx` (R373). -/
def execMsraSMx (md ms2 : MIdx) (rs1 : XcIdx) (s : State) :
    Host.Outcome State Fault Refusal :=
  s.shiftRight (encode (.msraSMx md ms2 rs1)) 32 7 md ms2 (.mx rs1)

/-- `msra.d.mm` (R374). -/
def execMsraDMm (md ms2 ms1 : MIdx) (s : State) :
    Host.Outcome State Fault Refusal :=
  s.shiftRight (encode (.msraDMm md ms2 ms1)) 64 6 md ms2 (.mm ms1)

/-- `msra.d.mv.x` (R375). -/
def execMsraDMvX (md ms2 ms1 : MIdx) (rs1 : XcIdx) (s : State) :
    Host.Outcome State Fault Refusal :=
  s.shiftRight (encode (.msraDMvX md ms2 ms1 rs1)) 64 6 md ms2 (.mvx ms1 rs1)

/-- `msra.d.mv.i` (R376). -/
def execMsraDMvI (md ms2 ms1 : MIdx) (uimm3 : BitVec 3) (s : State) :
    Host.Outcome State Fault Refusal :=
  s.shiftRight (encode (.msraDMvI md ms2 ms1 uimm3)) 64 6 md ms2 (.mvi ms1 uimm3)

/-- `msra.d.mx` (R377). -/
def execMsraDMx (md ms2 : MIdx) (rs1 : XcIdx) (s : State) :
    Host.Outcome State Fault Refusal :=
  s.shiftRight (encode (.msraDMx md ms2 rs1)) 64 6 md ms2 (.mx rs1)

/-- `mn4clip.s.mm` (R378). -/
def execMn4clipSMm (md ms2 ms1 : MIdx) (s : State) :
    Host.Outcome State Fault Refusal :=
  s.narrowClip (encode (.mn4clipSMm md ms2 ms1)) 32 7 clipSignedOp md ms2 (.mm ms1)

/-- `mn4clip.s.mv.x` (R379). -/
def execMn4clipSMvX (md ms2 ms1 : MIdx) (rs1 : XcIdx) (s : State) :
    Host.Outcome State Fault Refusal :=
  s.narrowClip (encode (.mn4clipSMvX md ms2 ms1 rs1)) 32 7 clipSignedOp md ms2 (.mvx ms1 rs1)

/-- `mn4clip.s.mv.i` (R380). -/
def execMn4clipSMvI (md ms2 ms1 : MIdx) (uimm3 : BitVec 3) (s : State) :
    Host.Outcome State Fault Refusal :=
  s.narrowClip (encode (.mn4clipSMvI md ms2 ms1 uimm3)) 32 7 clipSignedOp md ms2 (.mvi ms1 uimm3)

/-- `mn4clip.s.mx` (R381). -/
def execMn4clipSMx (md ms2 : MIdx) (rs1 : XcIdx) (s : State) :
    Host.Outcome State Fault Refusal :=
  s.narrowClip (encode (.mn4clipSMx md ms2 rs1)) 32 7 clipSignedOp md ms2 (.mx rs1)

/-- `mn4clip.d.mm` (R382). -/
def execMn4clipDMm (md ms2 ms1 : MIdx) (s : State) :
    Host.Outcome State Fault Refusal :=
  s.narrowClip (encode (.mn4clipDMm md ms2 ms1)) 64 6 clipSignedOp md ms2 (.mm ms1)

/-- `mn4clip.d.mv.x` (R383). -/
def execMn4clipDMvX (md ms2 ms1 : MIdx) (rs1 : XcIdx) (s : State) :
    Host.Outcome State Fault Refusal :=
  s.narrowClip (encode (.mn4clipDMvX md ms2 ms1 rs1)) 64 6 clipSignedOp md ms2 (.mvx ms1 rs1)

/-- `mn4clip.d.mv.i` (R384). -/
def execMn4clipDMvI (md ms2 ms1 : MIdx) (uimm3 : BitVec 3) (s : State) :
    Host.Outcome State Fault Refusal :=
  s.narrowClip (encode (.mn4clipDMvI md ms2 ms1 uimm3)) 64 6 clipSignedOp md ms2 (.mvi ms1 uimm3)

/-- `mn4clip.d.mx` (R385). -/
def execMn4clipDMx (md ms2 : MIdx) (rs1 : XcIdx) (s : State) :
    Host.Outcome State Fault Refusal :=
  s.narrowClip (encode (.mn4clipDMx md ms2 rs1)) 64 6 clipSignedOp md ms2 (.mx rs1)

/-- `mn4clipu.s.mm` (R386). -/
def execMn4clipuSMm (md ms2 ms1 : MIdx) (s : State) :
    Host.Outcome State Fault Refusal :=
  s.narrowClip (encode (.mn4clipuSMm md ms2 ms1)) 32 7 clipUnsignedOp md ms2 (.mm ms1)

/-- `mn4clipu.s.mv.x` (R387). -/
def execMn4clipuSMvX (md ms2 ms1 : MIdx) (rs1 : XcIdx) (s : State) :
    Host.Outcome State Fault Refusal :=
  s.narrowClip (encode (.mn4clipuSMvX md ms2 ms1 rs1)) 32 7 clipUnsignedOp md ms2 (.mvx ms1 rs1)

/-- `mn4clipu.s.mv.i` (R388). -/
def execMn4clipuSMvI (md ms2 ms1 : MIdx) (uimm3 : BitVec 3) (s : State) :
    Host.Outcome State Fault Refusal :=
  s.narrowClip (encode (.mn4clipuSMvI md ms2 ms1 uimm3)) 32 7 clipUnsignedOp md ms2 (.mvi ms1 uimm3)

/-- `mn4clipu.s.mx` (R389). -/
def execMn4clipuSMx (md ms2 : MIdx) (rs1 : XcIdx) (s : State) :
    Host.Outcome State Fault Refusal :=
  s.narrowClip (encode (.mn4clipuSMx md ms2 rs1)) 32 7 clipUnsignedOp md ms2 (.mx rs1)

/-- `mn4clipu.d.mm` (R390). -/
def execMn4clipuDMm (md ms2 ms1 : MIdx) (s : State) :
    Host.Outcome State Fault Refusal :=
  s.narrowClip (encode (.mn4clipuDMm md ms2 ms1)) 64 6 clipUnsignedOp md ms2 (.mm ms1)

/-- `mn4clipu.d.mv.x` (R391). -/
def execMn4clipuDMvX (md ms2 ms1 : MIdx) (rs1 : XcIdx) (s : State) :
    Host.Outcome State Fault Refusal :=
  s.narrowClip (encode (.mn4clipuDMvX md ms2 ms1 rs1)) 64 6 clipUnsignedOp md ms2 (.mvx ms1 rs1)

/-- `mn4clipu.d.mv.i` (R392). -/
def execMn4clipuDMvI (md ms2 ms1 : MIdx) (uimm3 : BitVec 3) (s : State) :
    Host.Outcome State Fault Refusal :=
  s.narrowClip (encode (.mn4clipuDMvI md ms2 ms1 uimm3)) 64 6 clipUnsignedOp md ms2 (.mvi ms1 uimm3)

/-- `mn4clipu.d.mx` (R393). -/
def execMn4clipuDMx (md ms2 : MIdx) (rs1 : XcIdx) (s : State) :
    Host.Outcome State Fault Refusal :=
  s.narrowClip (encode (.mn4clipuDMx md ms2 rs1)) 64 6 clipUnsignedOp md ms2 (.mx rs1)

end Sys2Proof.Machine
end

