-- ==== Sys2Proof/Machine/Dispatch.lean ====
section
/-! DEFINITION. One direct call of a meaning for every constructor of `Instr`. -/

namespace Sys2Proof.Machine

def exec (i : Instr) (s : State) : Host.Outcome State Fault Refusal :=
  match i with
  | .mmovMm md ms1 => Sys2Proof.Machine.execMmovMm md ms1 s
  | .mmovMvX md ms1 rs1 => Sys2Proof.Machine.execMmovMvX md ms1 rs1 s
  | .mmovMvI md ms1 uimm3 => Sys2Proof.Machine.execMmovMvI md ms1 uimm3 s
  | .mmovMx md rs1 => Sys2Proof.Machine.execMmovMx md rs1 s
  | .fmmaccH md ms2 ms1 => Sys2Proof.Machine.execFmmaccH md ms2 ms1 s
  | .fmmaccS md ms2 ms1 => Sys2Proof.Machine.execFmmaccS md ms2 ms1 s
  | .fmmaccD md ms2 ms1 => Sys2Proof.Machine.execFmmaccD md ms2 ms1 s
  | .fwmmaccH md ms2 ms1 => Sys2Proof.Machine.execFwmmaccH md ms2 ms1 s
  | .fwmmaccS md ms2 ms1 => Sys2Proof.Machine.execFwmmaccS md ms2 ms1 s
  | .mmaqaB md ms2 ms1 => Sys2Proof.Machine.execMmaqaB md ms2 ms1 s
  | .mmaqauB md ms2 ms1 => Sys2Proof.Machine.execMmaqauB md ms2 ms1 s
  | .mmaqausB md ms2 ms1 => Sys2Proof.Machine.execMmaqausB md ms2 ms1 s
  | .mmaqasuB md ms2 ms1 => Sys2Proof.Machine.execMmaqasuB md ms2 ms1 s
  | .mmaqaH md ms2 ms1 => Sys2Proof.Machine.execMmaqaH md ms2 ms1 s
  | .mmaqauH md ms2 ms1 => Sys2Proof.Machine.execMmaqauH md ms2 ms1 s
  | .mmaqausH md ms2 ms1 => Sys2Proof.Machine.execMmaqausH md ms2 ms1 s
  | .mmaqasuH md ms2 ms1 => Sys2Proof.Machine.execMmaqasuH md ms2 ms1 s
  | .pmmaqaB md ms2 ms1 => Sys2Proof.Machine.execPmmaqaB md ms2 ms1 s
  | .pmmaqauB md ms2 ms1 => Sys2Proof.Machine.execPmmaqauB md ms2 ms1 s
  | .pmmaqausB md ms2 ms1 => Sys2Proof.Machine.execPmmaqausB md ms2 ms1 s
  | .pmmaqasuB md ms2 ms1 => Sys2Proof.Machine.execPmmaqasuB md ms2 ms1 s
  | .maddSMm md ms2 ms1 => Sys2Proof.Machine.execMaddSMm md ms2 ms1 s
  | .maddSMvX md ms2 ms1 rs1 => Sys2Proof.Machine.execMaddSMvX md ms2 ms1 rs1 s
  | .maddSMvI md ms2 ms1 uimm3 => Sys2Proof.Machine.execMaddSMvI md ms2 ms1 uimm3 s
  | .maddSMx md ms2 rs1 => Sys2Proof.Machine.execMaddSMx md ms2 rs1 s
  | .maddDMm md ms2 ms1 => Sys2Proof.Machine.execMaddDMm md ms2 ms1 s
  | .maddDMvX md ms2 ms1 rs1 => Sys2Proof.Machine.execMaddDMvX md ms2 ms1 rs1 s
  | .maddDMvI md ms2 ms1 uimm3 => Sys2Proof.Machine.execMaddDMvI md ms2 ms1 uimm3 s
  | .maddDMx md ms2 rs1 => Sys2Proof.Machine.execMaddDMx md ms2 rs1 s
  | .msubSMm md ms2 ms1 => Sys2Proof.Machine.execMsubSMm md ms2 ms1 s
  | .msubSMvX md ms2 ms1 rs1 => Sys2Proof.Machine.execMsubSMvX md ms2 ms1 rs1 s
  | .msubSMvI md ms2 ms1 uimm3 => Sys2Proof.Machine.execMsubSMvI md ms2 ms1 uimm3 s
  | .msubSMx md ms2 rs1 => Sys2Proof.Machine.execMsubSMx md ms2 rs1 s
  | .msubDMm md ms2 ms1 => Sys2Proof.Machine.execMsubDMm md ms2 ms1 s
  | .msubDMvX md ms2 ms1 rs1 => Sys2Proof.Machine.execMsubDMvX md ms2 ms1 rs1 s
  | .msubDMvI md ms2 ms1 uimm3 => Sys2Proof.Machine.execMsubDMvI md ms2 ms1 uimm3 s
  | .msubDMx md ms2 rs1 => Sys2Proof.Machine.execMsubDMx md ms2 rs1 s
  | .mmulSMm md ms2 ms1 => Sys2Proof.Machine.execMmulSMm md ms2 ms1 s
  | .mmulSMvX md ms2 ms1 rs1 => Sys2Proof.Machine.execMmulSMvX md ms2 ms1 rs1 s
  | .mmulSMvI md ms2 ms1 uimm3 => Sys2Proof.Machine.execMmulSMvI md ms2 ms1 uimm3 s
  | .mmulSMx md ms2 rs1 => Sys2Proof.Machine.execMmulSMx md ms2 rs1 s
  | .mmulDMm md ms2 ms1 => Sys2Proof.Machine.execMmulDMm md ms2 ms1 s
  | .mmulDMvX md ms2 ms1 rs1 => Sys2Proof.Machine.execMmulDMvX md ms2 ms1 rs1 s
  | .mmulDMvI md ms2 ms1 uimm3 => Sys2Proof.Machine.execMmulDMvI md ms2 ms1 uimm3 s
  | .mmulDMx md ms2 rs1 => Sys2Proof.Machine.execMmulDMx md ms2 rs1 s
  | .mmulhSMm md ms2 ms1 => Sys2Proof.Machine.execMmulhSMm md ms2 ms1 s
  | .mmulhSMvX md ms2 ms1 rs1 => Sys2Proof.Machine.execMmulhSMvX md ms2 ms1 rs1 s
  | .mmulhSMvI md ms2 ms1 uimm3 => Sys2Proof.Machine.execMmulhSMvI md ms2 ms1 uimm3 s
  | .mmulhSMx md ms2 rs1 => Sys2Proof.Machine.execMmulhSMx md ms2 rs1 s
  | .mmulhDMm md ms2 ms1 => Sys2Proof.Machine.execMmulhDMm md ms2 ms1 s
  | .mmulhDMvX md ms2 ms1 rs1 => Sys2Proof.Machine.execMmulhDMvX md ms2 ms1 rs1 s
  | .mmulhDMvI md ms2 ms1 uimm3 => Sys2Proof.Machine.execMmulhDMvI md ms2 ms1 uimm3 s
  | .mmulhDMx md ms2 rs1 => Sys2Proof.Machine.execMmulhDMx md ms2 rs1 s
  | .msraSMm md ms2 ms1 => Sys2Proof.Machine.execMsraSMm md ms2 ms1 s
  | .msraSMvX md ms2 ms1 rs1 => Sys2Proof.Machine.execMsraSMvX md ms2 ms1 rs1 s
  | .msraSMvI md ms2 ms1 uimm3 => Sys2Proof.Machine.execMsraSMvI md ms2 ms1 uimm3 s
  | .msraSMx md ms2 rs1 => Sys2Proof.Machine.execMsraSMx md ms2 rs1 s
  | .msraDMm md ms2 ms1 => Sys2Proof.Machine.execMsraDMm md ms2 ms1 s
  | .msraDMvX md ms2 ms1 rs1 => Sys2Proof.Machine.execMsraDMvX md ms2 ms1 rs1 s
  | .msraDMvI md ms2 ms1 uimm3 => Sys2Proof.Machine.execMsraDMvI md ms2 ms1 uimm3 s
  | .msraDMx md ms2 rs1 => Sys2Proof.Machine.execMsraDMx md ms2 rs1 s
  | .mn4clipSMm md ms2 ms1 => Sys2Proof.Machine.execMn4clipSMm md ms2 ms1 s
  | .mn4clipSMvX md ms2 ms1 rs1 => Sys2Proof.Machine.execMn4clipSMvX md ms2 ms1 rs1 s
  | .mn4clipSMvI md ms2 ms1 uimm3 => Sys2Proof.Machine.execMn4clipSMvI md ms2 ms1 uimm3 s
  | .mn4clipSMx md ms2 rs1 => Sys2Proof.Machine.execMn4clipSMx md ms2 rs1 s
  | .mn4clipDMm md ms2 ms1 => Sys2Proof.Machine.execMn4clipDMm md ms2 ms1 s
  | .mn4clipDMvX md ms2 ms1 rs1 => Sys2Proof.Machine.execMn4clipDMvX md ms2 ms1 rs1 s
  | .mn4clipDMvI md ms2 ms1 uimm3 => Sys2Proof.Machine.execMn4clipDMvI md ms2 ms1 uimm3 s
  | .mn4clipDMx md ms2 rs1 => Sys2Proof.Machine.execMn4clipDMx md ms2 rs1 s
  | .mn4clipuSMm md ms2 ms1 => Sys2Proof.Machine.execMn4clipuSMm md ms2 ms1 s
  | .mn4clipuSMvX md ms2 ms1 rs1 => Sys2Proof.Machine.execMn4clipuSMvX md ms2 ms1 rs1 s
  | .mn4clipuSMvI md ms2 ms1 uimm3 => Sys2Proof.Machine.execMn4clipuSMvI md ms2 ms1 uimm3 s
  | .mn4clipuSMx md ms2 rs1 => Sys2Proof.Machine.execMn4clipuSMx md ms2 rs1 s
  | .mn4clipuDMm md ms2 ms1 => Sys2Proof.Machine.execMn4clipuDMm md ms2 ms1 s
  | .mn4clipuDMvX md ms2 ms1 rs1 => Sys2Proof.Machine.execMn4clipuDMvX md ms2 ms1 rs1 s
  | .mn4clipuDMvI md ms2 ms1 uimm3 => Sys2Proof.Machine.execMn4clipuDMvI md ms2 ms1 uimm3 s
  | .mn4clipuDMx md ms2 rs1 => Sys2Proof.Machine.execMn4clipuDMx md ms2 rs1 s
  | .mldb md rs2 rs1 => Sys2Proof.Machine.execMldb md rs2 rs1 s
  | .mldh md rs2 rs1 => Sys2Proof.Machine.execMldh md rs2 rs1 s
  | .mldw md rs2 rs1 => Sys2Proof.Machine.execMldw md rs2 rs1 s
  | .mldd md rs2 rs1 => Sys2Proof.Machine.execMldd md rs2 rs1 s
  | .mstb ms3 rs2 rs1 => Sys2Proof.Machine.execMstb ms3 rs2 rs1 s
  | .msth ms3 rs2 rs1 => Sys2Proof.Machine.execMsth ms3 rs2 rs1 s
  | .mstw ms3 rs2 rs1 => Sys2Proof.Machine.execMstw ms3 rs2 rs1 s
  | .mstd ms3 rs2 rs1 => Sys2Proof.Machine.execMstd ms3 rs2 rs1 s
  | .msldb md rs2 rs1 => Sys2Proof.Machine.execMsldb md rs2 rs1 s
  | .msldh md rs2 rs1 => Sys2Proof.Machine.execMsldh md rs2 rs1 s
  | .msldw md rs2 rs1 => Sys2Proof.Machine.execMsldw md rs2 rs1 s
  | .msldd md rs2 rs1 => Sys2Proof.Machine.execMsldd md rs2 rs1 s
  | .msstb ms3 rs2 rs1 => Sys2Proof.Machine.execMsstb ms3 rs2 rs1 s
  | .mssth ms3 rs2 rs1 => Sys2Proof.Machine.execMssth ms3 rs2 rs1 s
  | .msstw ms3 rs2 rs1 => Sys2Proof.Machine.execMsstw ms3 rs2 rs1 s
  | .msstd ms3 rs2 rs1 => Sys2Proof.Machine.execMsstd ms3 rs2 rs1 s
  | .mld1mb md rs1 => Sys2Proof.Machine.execMld1mb md rs1 s
  | .mld1mh md rs1 => Sys2Proof.Machine.execMld1mh md rs1 s
  | .mld1mw md rs1 => Sys2Proof.Machine.execMld1mw md rs1 s
  | .mld1md md rs1 => Sys2Proof.Machine.execMld1md md rs1 s
  | .mld2mb md rs1 => Sys2Proof.Machine.execMld2mb md rs1 s
  | .mld2mh md rs1 => Sys2Proof.Machine.execMld2mh md rs1 s
  | .mld2mw md rs1 => Sys2Proof.Machine.execMld2mw md rs1 s
  | .mld2md md rs1 => Sys2Proof.Machine.execMld2md md rs1 s
  | .mld4mb md rs1 => Sys2Proof.Machine.execMld4mb md rs1 s
  | .mld4mh md rs1 => Sys2Proof.Machine.execMld4mh md rs1 s
  | .mld4mw md rs1 => Sys2Proof.Machine.execMld4mw md rs1 s
  | .mld4md md rs1 => Sys2Proof.Machine.execMld4md md rs1 s
  | .mld8mb md rs1 => Sys2Proof.Machine.execMld8mb md rs1 s
  | .mld8mh md rs1 => Sys2Proof.Machine.execMld8mh md rs1 s
  | .mld8mw md rs1 => Sys2Proof.Machine.execMld8mw md rs1 s
  | .mld8md md rs1 => Sys2Proof.Machine.execMld8md md rs1 s
  | .mst1mb ms3 rs1 => Sys2Proof.Machine.execMst1mb ms3 rs1 s
  | .mst1mh ms3 rs1 => Sys2Proof.Machine.execMst1mh ms3 rs1 s
  | .mst1mw ms3 rs1 => Sys2Proof.Machine.execMst1mw ms3 rs1 s
  | .mst1md ms3 rs1 => Sys2Proof.Machine.execMst1md ms3 rs1 s
  | .mst2mb ms3 rs1 => Sys2Proof.Machine.execMst2mb ms3 rs1 s
  | .mst2mh ms3 rs1 => Sys2Proof.Machine.execMst2mh ms3 rs1 s
  | .mst2mw ms3 rs1 => Sys2Proof.Machine.execMst2mw ms3 rs1 s
  | .mst2md ms3 rs1 => Sys2Proof.Machine.execMst2md ms3 rs1 s
  | .mst4mb ms3 rs1 => Sys2Proof.Machine.execMst4mb ms3 rs1 s
  | .mst4mh ms3 rs1 => Sys2Proof.Machine.execMst4mh ms3 rs1 s
  | .mst4mw ms3 rs1 => Sys2Proof.Machine.execMst4mw ms3 rs1 s
  | .mst4md ms3 rs1 => Sys2Proof.Machine.execMst4md ms3 rs1 s
  | .mst8mb ms3 rs1 => Sys2Proof.Machine.execMst8mb ms3 rs1 s
  | .mst8mh ms3 rs1 => Sys2Proof.Machine.execMst8mh ms3 rs1 s
  | .mst8mw ms3 rs1 => Sys2Proof.Machine.execMst8mw ms3 rs1 s
  | .mst8md ms3 rs1 => Sys2Proof.Machine.execMst8md ms3 rs1 s
  | .mcfgki uimm7 => Sys2Proof.Machine.execMcfgki uimm7 s
  | .mcfgmi uimm7 => Sys2Proof.Machine.execMcfgmi uimm7 s
  | .mcfgni uimm7 => Sys2Proof.Machine.execMcfgni uimm7 s
  | .mcfgk rs1 => Sys2Proof.Machine.execMcfgk rs1 s
  | .mcfgm rs1 => Sys2Proof.Machine.execMcfgm rs1 s
  | .mcfgn rs1 => Sys2Proof.Machine.execMcfgn rs1 s
  | .mcfg rs1 => Sys2Proof.Machine.execMcfg rs1 s

end Sys2Proof.Machine
end

