-- ==== Sys2Proof/Machine/Csr.lean ====
section
/-! DEFINITION. The CSRs: which register an address names, what reading gives, what writing does, and
who may access it (10_state.md R36 to R57, 47_host_interface.md R404 to R406, 60_exceptions.md R428,
R432 to R439). -/

namespace Sys2Proof.Machine

/-- The CSRs that spec/ describes. -/
inductive Csr where
  | xmrstart | xmcsr | xmxrm | xmxsat | xmsize | xmregsize | xmlenb | xmisa
  | fflags | frm | fcsr
  | mstatus | mtvec | medeleg | mideleg | mepc | mcause | mtval
  | sstatus | stvec | sepc | scause | stval
  | cycle | time | instret | cycleh | timeh | instreth
deriving DecidableEq, Repr

/-- The addresses: the six open ones from the configuration (decision D14), `xmregsize` and `xmlenb`
from 10_state.md R36, `fflags`, `frm`, `fcsr`, `mstatus`, `sstatus` from 47_host_interface.md R406. Those of
the trap registers and of the counters are the family's: PRESUMED, unsafe (logs 15 and 34). -/
def Csr.address (c : Config) : Csr → BitVec 12
  | .xmrstart => c.csrAddr.xmrstart
  | .xmcsr => c.csrAddr.xmcsr
  | .xmxrm => c.csrAddr.xmxrm
  | .xmxsat => c.csrAddr.xmxsat
  | .xmsize => c.csrAddr.xmsize
  | .xmregsize => 0xCC2#12
  | .xmlenb => 0xCC3#12
  | .xmisa => c.csrAddr.xmisa
  | .fflags => 0x001#12
  | .frm => 0x002#12
  | .fcsr => 0x003#12
  | .mstatus => 0x300#12
  | .mtvec => 0x305#12
  | .medeleg => 0x302#12
  | .mideleg => 0x303#12
  | .mepc => 0x341#12
  | .mcause => 0x342#12
  | .mtval => 0x343#12
  | .sstatus => 0x100#12
  | .stvec => 0x105#12
  | .sepc => 0x141#12
  | .scause => 0x142#12
  | .stval => 0x143#12
  | .cycle => 0xC00#12
  | .time => 0xC01#12
  | .instret => 0xC02#12
  | .cycleh => 0xC80#12
  | .timeh => 0xC81#12
  | .instreth => 0xC82#12

/-- Every CSR that spec/ describes. -/
def Csr.all : List Csr :=
  [.xmrstart, .xmcsr, .xmxrm, .xmxsat, .xmsize, .xmregsize, .xmlenb, .xmisa, .fflags, .frm, .fcsr,
    .mstatus, .mtvec, .medeleg, .mideleg, .mepc, .mcause, .mtval, .sstatus, .stvec, .sepc, .scause,
    .stval, .cycle, .time, .instret, .cycleh, .timeh, .instreth]

/-- The host has the CSR: the upper halves of the counters exist on RV32 alone, PRESUMED, unsafe
(log 34). -/
def Csr.present (l : Xlen) : Csr → Bool
  | .cycleh | .timeh | .instreth => l == .x32
  | _ => true

/-- The CSR at an address. -/
def csrAt (c : Config) (a : BitVec 12) : Option Csr :=
  Csr.all.find? fun r => r.present c.xlen && r.address c == a

/-- A matrix CSR (10_state.md R36). -/
def Csr.isMatrix : Csr → Bool
  | .xmrstart | .xmcsr | .xmxrm | .xmxsat | .xmsize | .xmregsize | .xmlenb | .xmisa => true
  | _ => false

/-- A register that a CSR instruction can read and not write: a `URO` one (10_state.md R36, R37), or a
counter of the host (PRESUMED, unsafe, log 34). -/
def Csr.readOnly : Csr → Bool
  | .xmxsat | .xmsize | .xmregsize | .xmlenb | .xmisa => true
  | .cycle | .time | .instret | .cycleh | .timeh | .instreth => true
  | _ => false

/-- A counter of cycles or of time, which is timing: what it reads as is free (60_exceptions.md R439;
log 34). -/
def Csr.isTimer : Csr → Bool
  | .cycle | .time | .cycleh | .timeh => true
  | _ => false

/-- A part of `fcsr`. -/
def Csr.isFloat : Csr → Bool
  | .fflags | .frm | .fcsr => true
  | _ => false

/-- The least privilege: matrix CSRs are open to every level (10_state.md R37), `mstatus` to M, `sstatus` to S
and M (60_exceptions.md R438). That the machine trap registers are open to M alone, the supervisor ones to S
and M, and `fcsr` and the counters to every level is the family's: PRESUMED, unsafe (logs 21 and 34). -/
def Csr.allowed : Csr → Priv → Bool
  | .mstatus, p | .mtvec, p | .medeleg, p | .mideleg, p | .mepc, p | .mcause, p | .mtval, p => p == .m
  | .sstatus, p | .stvec, p | .sepc, p | .scause, p | .stval, p => p != .u
  | _, _ => true

/-- A bit at a position of a word. -/
def bitAt (b : Bool) (pos : Nat) : Word := if b then 1#64 <<< pos else 0

/-- The encoding of a privilege level (60_exceptions.md R437). -/
def Priv.code : Priv → BitVec 2
  | .u => 0#2
  | .s => 1#2
  | .m => 3#2

/-- The level that an encoding names, if it names one. -/
def privOf (v : BitVec 2) : Option Priv :=
  match v.toNat with
  | 0 => some .u
  | 1 => some .s
  | 3 => some .m
  | _ => none

/-- The fields of `mstatus` that `sstatus` shows: `SIE`, `SPIE`, `SPP`, `FS`, `MS` and `SD`
(10_state.md R51, 47_host_interface.md R406). The positions other than those of `FS` and `MS` are the
family's: PRESUMED, unsafe (log 14). That the host has no other field, so that every other bit reads as 0 and
neither `VS` nor `XS` sets `SD`, is a DESIGN CHOICE, unsafe (log 14). -/
def State.sstatusWord (s : State) : Word :=
  bitAt s.mstatus.sie 1 ||| bitAt s.mstatus.spie 5 ||| bitAt s.mstatus.spp 8 |||
    (s.mstatus.fs.setWidth 64 <<< 13) ||| (s.mstatus.ms.setWidth 64 <<< s.cfg.msPos) |||
    bitAt (s.mstatus.fs == 3#2 || s.mstatus.ms == 3#2) (s.cfg.xlen.bits - 1)

/-- `mstatus` as a word (10_state.md R51, R56, 47_host_interface.md R406; positions: log 14). Every other bit
reads as 0 and is not stored: DESIGN CHOICE, unsafe (log 14). -/
def State.mstatusWord (s : State) : Word :=
  s.sstatusWord ||| bitAt s.mstatus.mie 3 ||| bitAt s.mstatus.mpie 7 |||
    ((Priv.code s.mstatus.mpp).setWidth 64 <<< 11) ||| bitAt s.mstatus.mprv 17

/-- `fcsr` as a word (10_state.md R55, R57). -/
def State.fcsrWord (s : State) : Word :=
  s.fflags.setWidth 64 ||| (s.frm.setWidth 64 <<< 5) ||| bitAt (s.cfg.hasBf16 && s.bf16) s.cfg.bf16Bit

/-- What a CSR reads as (10_state.md R38 to R50; `xmcsr` is an alias of `xmxsat` and `xmxrm`, R39; the counters:
60_exceptions.md R439). -/
def State.csrRead (s : State) (r : Csr) : Word :=
  wrapX s.cfg.xlen <|
    match r with
    | .xmrstart => s.xmrstart
    | .xmcsr => bitAt s.xmxsat 0 ||| (s.xmxrm.setWidth 64 <<< 1)
    | .xmxrm => s.xmxrm.setWidth 64
    | .xmxsat => bitAt s.xmxsat 0
    | .xmsize => (s.sizeK ++ s.sizeN ++ s.sizeM).setWidth 64
    | .xmregsize => BitVec.ofNat 64 s.cfg.regBytes
    | .xmlenb => BitVec.ofNat 64 s.cfg.mlenb
    | .xmisa => s.cfg.xmisa.setWidth 64
    | .fflags => s.fflags.setWidth 64
    | .frm => s.frm.setWidth 64
    | .fcsr => s.fcsrWord
    | .mstatus => s.mstatusWord
    | .mtvec => s.mtvec
    | .medeleg => s.medeleg
    | .mideleg => s.mideleg
    | .mepc => s.mepc
    | .mcause => s.mcause
    | .mtval => s.mtval
    | .sstatus => s.sstatusWord
    | .stvec => s.stvec
    | .sepc => s.sepc
    | .scause => s.scause
    | .stval => s.stval
    | .instret => s.instret
    | .instreth => s.instret >>> 32
    | .cycle | .time | .cycleh | .timeh => Config.freeTimer (r.address s.cfg) s.draws

/-- The state after a read of a CSR: each read of a timing counter draws a new value. -/
def State.csrAfterRead (s : State) (r : Csr) : State :=
  if r.isTimer then { s with draws := s.draws + 1 } else s

/-- The fields of `sstatus` as a write leaves them. -/
def State.sstatusFields (s : State) (v : Word) : MStatus :=
  { s.mstatus with
    sie := v.getLsbD 1, spie := v.getLsbD 5, spp := v.getLsbD 8
    fs := v.extractLsb' 13 2, ms := v.extractLsb' s.cfg.msPos 2 }

/-- The fields of `mstatus` as a write leaves them; an `MPP` that names no level is not written:
PRESUMED, unsafe (log 21). -/
def State.mstatusFields (s : State) (v : Word) : MStatus :=
  { s.sstatusFields v with
    mie := v.getLsbD 3, mpie := v.getLsbD 7
    mpp := (privOf (v.extractLsb' 11 2)).getD s.mstatus.mpp, mprv := v.getLsbD 17 }

/-- A value that `mepc` or `sepc` can hold: an instruction address. PRESUMED, unsafe (log 21). -/
def epcValue (c : Config) (v : Word) : Word :=
  if c.compressed then v &&& ~~~1#64 else v &&& ~~~3#64

/-- A value that a trap vector register can hold: its mode is 0 or 1. PRESUMED, unsafe (log 21). -/
def tvecValue (v : Word) : Word := v &&& ~~~2#64

/-- What a write of a CSR does, by itself (10_state.md R38 to R40, R55, R57). -/
def State.csrSet (s : State) (r : Csr) (value : Word) : State :=
  let v := wrapX s.cfg.xlen value
  match r with
  | .xmrstart => { s with xmrstart := v }
  | .xmcsr => { s with xmxsat := v.getLsbD 0, xmxrm := v.extractLsb' 1 2 }
  | .xmxrm => { s with xmxrm := v.setWidth 2 }
  | .xmxsat | .xmsize | .xmregsize | .xmlenb | .xmisa => s
  | .cycle | .time | .instret | .cycleh | .timeh | .instreth => s
  | .fflags => { s with fflags := v.setWidth 5 }
  | .frm => { s with frm := v.setWidth 3 }
  | .fcsr =>
    { s with
      fflags := v.setWidth 5, frm := v.extractLsb' 5 3
      bf16 := s.cfg.hasBf16 && v.getLsbD s.cfg.bf16Bit }
  | .mstatus => { s with mstatus := s.mstatusFields v }
  | .mtvec => { s with mtvec := tvecValue v }
  | .medeleg => { s with medeleg := v }
  | .mideleg => { s with mideleg := v }
  | .mepc => { s with mepc := epcValue s.cfg v }
  | .mcause => { s with mcause := v }
  | .mtval => { s with mtval := v }
  | .sstatus => { s with mstatus := s.sstatusFields v }
  | .stvec => { s with stvec := tvecValue v }
  | .sepc => { s with sepc := epcValue s.cfg v }
  | .scause => { s with scause := v }
  | .stval => { s with stval := v }

/-- A write of a CSR: a matrix CSR makes `MS` Dirty (10_state.md R53); a part of `fcsr` makes `FS`
Dirty, which is the family's: PRESUMED, unsafe (log 21). -/
def State.csrWrite (s : State) (r : Csr) (value : Word) : State :=
  let t := s.csrSet r value
  if r.isMatrix then t.dirtyMS else if r.isFloat then t.dirtyFS else t

/-- Non-zero reserved bits of `xmxrm` or `xmcsr` (10_state.md R39, R40). -/
def csrBitsOk (r : Csr) (v : Word) : Bool :=
  match r with
  | .xmxrm => v.toNat / 4 == 0
  | .xmcsr => v.toNat / 8 == 0
  | _ => true

/-- The checks of an access: privilege, the `MS`-Off gate with `xmcsr` exempt (10_state.md R52, decision
D18), the `FS`-Off gate (PRESUMED, unsafe, log 21), a write of a read-only register, reserved bits
(60_exceptions.md R428). -/
def State.csrChecks (s : State) (r : Csr) (writes : Bool) (value : Word) : List (Bool × Stop) :=
  [(!r.allowed s.priv, .illegal),
    (r.isMatrix && r != .xmcsr && s.mstatus.ms == 0#2, .illegal),
    (r.isFloat && s.mstatus.fs == 0#2, .illegal),
    (writes && r.readOnly, .illegal),
    (writes && !csrBitsOk r value, .reserved .csrBits)]

end Sys2Proof.Machine
end

