-- ==== Sys2Proof/Machine/HostExec.lean ====
section
/-! DEFINITION. The host instructions that spec/ gives a meaning to: `addi`, `lui`, `bne`
(47_host_interface.md R409), the CSR instructions (R404, R405), `MRET`, `SRET` (60_exceptions.md R433),
`FENCE`, `FENCE.I` (20_memory.md R92, R94), `ECALL`, `EBREAK`, `WFI`, `SFENCE.VMA` (R408). Then the words that
are no instruction of spec/. -/

namespace Sys2Proof.Machine

/-- The operand of a CSR instruction: `x[rs1]`, or the zero-extended field
(47_host_interface.md R404). -/
def State.csrOperand (s : State) (imm : Bool) (src : XIdx) : Word :=
  if imm then src.setWidth 64 else s.xval src

/-- The value that a CSR instruction writes. -/
def csrNewValue (op : CsrOp) (old operand : Word) : Word :=
  match op with
  | .write => operand
  | .set => old ||| operand
  | .clear => old &&& ~~~operand

/-- Whether a CSR instruction writes: the set and clear forms do not with a zero source field
(47_host_interface.md R404). -/
def csrWrites (op : CsrOp) (src : XIdx) : Bool := op == .write || src != 0#5

/-- A CSR instruction on a register that spec/ describes. -/
def State.csrAccess (s : State) (word : BitVec 32) (op : CsrOp) (imm : Bool) (rd : XIdx) (r : Csr)
    (src : XIdx) : Host.Outcome State Fault Refusal :=
  let old := s.csrRead r
  let value := csrNewValue op old (s.csrOperand imm src)
  let writes := csrWrites op src
  s.guard word (s.csrChecks r writes value)
    (.next (((if writes then s.csrWrite r value else s.csrAfterRead r).setX rd old).advance))

/-- A CSR instruction: an address at which nothing is implemented is illegal (60_exceptions.md R428),
a CSR of the host that spec/ does not describe is refused (log 20). -/
def State.csrInstr (s : State) (word : BitVec 32) (op : CsrOp) (imm : Bool) (rd : XIdx)
    (addr : BitVec 12) (src : XIdx) : Host.Outcome State Fault Refusal :=
  match csrAt s.cfg addr with
  | some r => s.csrAccess word op imm rd r src
  | none =>
    if s.cfg.hostCsrs.contains addr then .refused (.hostCsr addr) else .next (s.illegal word)

/-- Where a branch goes: `pc + sext(off)`, `off` counted in halfwords (47_host_interface.md R409). -/
def State.branchTarget (s : State) (off : BitVec 12) : Word :=
  wrapX s.cfg.xlen (s.pc + (off ++ 0#1).signExtend 64)

/-- The environment call of a privilege level (47_host_interface.md R408; log 32). -/
def Priv.ecall : Priv → Exc
  | .u => .ecallU
  | .s => .ecallS
  | .m => .ecallM

/-- `EBREAK`: the trap value is `pc` or 0 (47_host_interface.md R408; log 32). -/
def State.breakpoint (s : State) : State :=
  s.takeException .breakpoint (if s.cfg.breakpointTvalIsPc then s.pc else 0)

/-- The meaning of a host instruction. `WFI` may end at once, so it only advances `pc`; `SFENCE.VMA` orders
accesses to translation tables, which the model has none of, and is illegal in user mode (47_host_interface.md R408;
PRESUMED, unsafe, log 32). -/
def execHost (i : HostInstr) (word : BitVec 32) (s : State) : Host.Outcome State Fault Refusal :=
  match i with
  | .addi rd rs1 imm => .next (s.setX rd (s.xval rs1 + imm.signExtend 64)).advance
  | .lui rd imm => .next (s.setX rd ((imm ++ 0#12).signExtend 64)).advance
  | .bne rs1 rs2 off =>
    if s.xval rs1 = s.xval rs2 then .next s.advance
    else .next { s.retire with pc := s.branchTarget off }
  | .csr op imm rd addr src => s.csrInstr word op imm rd addr src
  | .mret => if s.priv = .m then .next s.returnFromM.retire else .next (s.illegal word)
  | .sret => if s.priv = .u then .next (s.illegal word) else .next s.returnFromS.retire
  | .fence => .next s.advance
  | .fenceI => .next ({ s with stale := [] } : State).advance
  | .ecall => .next (s.takeException s.priv.ecall 0)
  | .ebreak => .next s.breakpoint
  | .wfi => .next s.advance
  | .sfenceVma _ _ => if s.priv = .u then .next (s.illegal word) else .next s.advance

/-- The effect of a word that is no matrix instruction: a host instruction that spec/ describes; a word of
custom-1 with another `func3`, which is RESERVED (70_reset_and_hazards.md R467 row 1); or an instruction of the base
ISA, which is out of scope (log 20). -/
def otherWord (w : BitVec 32) (s : State) : Host.Outcome State Fault Refusal :=
  match decodeHost w with
  | some h => execHost h w s
  | none =>
    if w.extractLsb' 0 7 = majorOpcode then s.stop w (.reserved .func3)
    else .refused (.hostInstruction w)

end Sys2Proof.Machine
end

