-- ==== Sys2Proof/Machine/Fetch.lean ====
section
/-! DEFINITION. Fetching an instruction (20_memory.md R80, R82, R84, R94, 60_exceptions.md R421). -/

namespace Sys2Proof.Machine

/-- The address of byte `k` of the instruction at `pc`. -/
def State.fetchAddr (s : State) (k : Nat) : Nat := (s.pc.toNat + k) % 2 ^ s.cfg.xlen.bits

/-- What a fetch may see at an address: the byte in memory, or one that a store has replaced since
the last `FENCE.I` (20_memory.md R94; log 11). -/
def State.fetchOptions (s : State) (a : Nat) : List Byte :=
  s.byteAt a :: (s.stale.filter fun c => c.1 == a).map fun c => c.2

/-- The byte that the fetch sees. -/
def State.fetchByte (s : State) (k : Nat) : Byte :=
  pickByte (s.draws + s.fetchAddr k) (s.fetchOptions (s.fetchAddr k))

/-- The instruction word: the byte at `pc` is the least significant (20_memory.md R82). -/
def State.fetchWord (s : State) : BitVec 32 :=
  wordOfBytes (s.fetchByte 0) (s.fetchByte 1) (s.fetchByte 2) (s.fetchByte 3)

/-- No byte of the instruction at `pc` has been replaced by another since the last `FENCE.I`. -/
def State.fetchCoherent (s : State) : Bool :=
  (List.range 4).all fun k => allSame (s.fetchOptions (s.fetchAddr k))

/-- The state after the fetch: the count of draws goes on if a free byte was seen. -/
def State.afterFetch (s : State) : State :=
  if s.fetchCoherent then s else { s with draws := s.draws + 2 ^ s.cfg.xlen.bits }

/-- How many bytes the fetch needs: two where the host has the compressed extension and the first
byte does not mark a 32-bit instruction (30_encoding.md R110). -/
def State.fetchBytes (s : State) : Nat :=
  if s.cfg.compressed && (s.fetchByte 0).extractLsb' 0 2 != 3#2 then 2 else 4

/-- `pc` is aligned for an instruction (20_memory.md R84). -/
def State.pcAligned (s : State) : Bool :=
  s.pc.toNat % (if s.cfg.compressed then 2 else 4) == 0

/-- The exception of byte `k` of the instruction, with the address of its halfword as trap value
(log 16). -/
def State.fetchByteFault (s : State) (k : Nat) : Option (Exc × Word) :=
  let tval := BitVec.ofNat 64 (s.fetchAddr (k / 2 * 2))
  match s.fetchReach (s.fetchAddr k) with
  | .ok => none
  | .accessFault => some (.fetchAccess, tval)
  | .pageFault => some (.fetchPage, tval)

/-- The exception that the fetch raises (60_exceptions.md R421). -/
def State.fetchFault (s : State) : Option (Exc × Word) :=
  if s.pcAligned then (List.range s.fetchBytes).findSome? s.fetchByteFault
  else some (.fetchMisaligned, s.pc)

end Sys2Proof.Machine
end

