-- ==== Sys2Proof/Machine/Step.lean ====
section
/-! DEFINITION. One step: fetch, decode, execute (70_reset_and_hazards.md R463). -/

namespace Sys2Proof.Machine

/-- The effect of an instruction word: a matrix instruction, a reserved encoding, or a word that is none
(30_encoding.md R127, R132). -/
def runWord (w : BitVec 32) (s : State) : Host.Outcome State Fault Refusal :=
  match decode w with
  | .ok i => exec i s
  | .error (.reserved why) => s.stop w (.reserved why)
  | .error _ => otherWord w s

/-- One step of the machine. -/
def step (s : State) : Host.Outcome State Fault Refusal :=
  match s.fetchFault with
  | some (e, tval) => .next (s.takeException e tval)
  | none => runWord s.fetchWord s.afterFetch

/-- The instruction of `nbits` bits `w` stored where `step` fetches next. A fetch sees the stored
bytes alone: what earlier stores replaced there is dropped. -/
def State.withFetchWord (s : State) (nbits w : Nat) : State :=
  let v := w % 2 ^ nbits
  let cells := (List.range 4).map fun k => (s.fetchAddr k, tableByte v k)
  { s with
    mem := s.mem.writeAll cells
    stale := s.stale.filter fun c => !(cells.any fun d => d.1 == c.1) }

end Sys2Proof.Machine
end

