-- ==== Sys2Proof/Safety.lean ====
section
/-! DEFINITION. What a safe state is, and the words in which statements speak of what an instruction
changes and what it leaves alone. -/

namespace Sys2Proof.Machine

/-! ### The invariant -/

/-- The registers of `XLEN` bits other than `x0`..`x31`. -/
def State.wordRegs (s : State) : List Word :=
  [s.pc, s.xmrstart, s.mepc, s.mcause, s.mtval, s.mtvec, s.medeleg, s.mideleg, s.sepc, s.scause,
    s.stval, s.stvec]

/-- A well-formed state: memory is in canonical form inside the address space (20_memory.md R80), every
matrix register has `ROWS` rows of `MLEN` bits (10_state.md R31), every integer and trap register
has `XLEN` bits, and `x0` holds zero (47_host_interface.md R400). -/
structure State.Inv (s : State) : Prop where
  mem_wf : s.mem.wf = true
  mem_below : s.mem.below (2 ^ s.cfg.xlen.bits) = true
  reg_rows : ∀ r : MIdx, (s.m[r.toNat]'r.isLt).length = s.cfg.rows
  row_bits : ∀ r : MIdx, ∀ row ∈ s.m[r.toNat]'r.isLt, row.toNat < 2 ^ s.cfg.mlen.bits
  x_bits : ∀ i : XIdx, (s.x[i.toNat]'i.isLt).toNat < 2 ^ s.cfg.xlen.bits
  x_zero : s.x[0] = 0
  words : ∀ w ∈ s.wordRegs, w.toNat < 2 ^ s.cfg.xlen.bits

/-! ### Kinds of instruction, by their fields (30_encoding.md R114, R116) -/

/-- The `uop` field. -/
def uopOf (i : Instr) : BitVec 3 := (encode i).extractLsb' 25 3

/-- The `func` field. -/
def funcOf (i : Instr) : BitVec 4 := (encode i).extractLsb' 28 4

/-- A matrix load. -/
def isLoad (i : Instr) : Bool := uopOf i == 4#3

/-- A matrix store. -/
def isStore (i : Instr) : Bool := uopOf i == 5#3

/-- A configuration instruction. -/
def isConfig (i : Instr) : Bool := uopOf i == 7#3

/-- A float matrix multiplication. -/
def isFloatMul (i : Instr) : Bool := uopOf i == 0#3 && funcOf i == 1#4

/-- `mn4clip` or `mn4clipu`, in any form. -/
def isClip (i : Instr) : Bool :=
  decide (uopOf i < 4#3) && (funcOf i == 6#4 || funcOf i == 7#4)

/-- The instruction of a pointwise operation with a second operand of the given form
(30_encoding.md R122). -/
def withSrc2 (mm : MIdx → MIdx → MIdx → Instr) (mvx : MIdx → MIdx → MIdx → XcIdx → Instr)
    (mvi : MIdx → MIdx → MIdx → BitVec 3 → Instr) (mx : MIdx → MIdx → XcIdx → Instr)
    (md ms2 : MIdx) : Src2 → Instr
  | .mm ms1 => mm md ms2 ms1
  | .mvx ms1 rs1 => mvx md ms2 ms1 rs1
  | .mvi ms1 uimm3 => mvi md ms2 ms1 uimm3
  | .mx rs1 => mx md ms2 rs1

/-- The 32-bit pointwise instructions with a second operand of the given form (30_encoding.md R122). -/
def pointwiseS (md ms2 : MIdx) (b : Src2) : List Instr :=
  [withSrc2 .maddSMm .maddSMvX .maddSMvI .maddSMx md ms2 b,
    withSrc2 .msubSMm .msubSMvX .msubSMvI .msubSMx md ms2 b,
    withSrc2 .mmulSMm .mmulSMvX .mmulSMvI .mmulSMx md ms2 b,
    withSrc2 .mmulhSMm .mmulhSMvX .mmulhSMvI .mmulhSMx md ms2 b,
    withSrc2 .msraSMm .msraSMvX .msraSMvI .msraSMx md ms2 b,
    withSrc2 .mn4clipSMm .mn4clipSMvX .mn4clipSMvI .mn4clipSMx md ms2 b,
    withSrc2 .mn4clipuSMm .mn4clipuSMvX .mn4clipuSMvI .mn4clipuSMx md ms2 b]

/-- The 64-bit pointwise instructions with a second operand of the given form. -/
def pointwiseD (md ms2 : MIdx) (b : Src2) : List Instr :=
  [withSrc2 .maddDMm .maddDMvX .maddDMvI .maddDMx md ms2 b,
    withSrc2 .msubDMm .msubDMvX .msubDMvI .msubDMx md ms2 b,
    withSrc2 .mmulDMm .mmulDMvX .mmulDMvI .mmulDMx md ms2 b,
    withSrc2 .mmulhDMm .mmulhDMvX .mmulhDMvI .mmulhDMx md ms2 b,
    withSrc2 .msraDMm .msraDMvX .msraDMvI .msraDMx md ms2 b,
    withSrc2 .mn4clipDMm .mn4clipDMvX .mn4clipDMvI .mn4clipDMx md ms2 b,
    withSrc2 .mn4clipuDMm .mn4clipuDMvX .mn4clipuDMvI .mn4clipuDMx md ms2 b]

/-- The normal and stream loads with the bytes of their elements (42_load_store.md R220 to R235). -/
def shapedLoads (md : MIdx) (rs2 rs1 : XIdx) : List (Instr × Nat) :=
  [(.mldb md rs2 rs1, 1), (.mldh md rs2 rs1, 2), (.mldw md rs2 rs1, 4), (.mldd md rs2 rs1, 8),
    (.msldb md rs2 rs1, 1), (.msldh md rs2 rs1, 2), (.msldw md rs2 rs1, 4), (.msldd md rs2 rs1, 8)]

/-- The normal and stream stores with the bytes of their elements. -/
def shapedStores (ms3 : MIdx) (rs2 rs1 : XIdx) : List (Instr × Nat) :=
  [(.mstb ms3 rs2 rs1, 1), (.msth ms3 rs2 rs1, 2), (.mstw ms3 rs2 rs1, 4), (.mstd ms3 rs2 rs1, 8),
    (.msstb ms3 rs2 rs1, 1), (.mssth ms3 rs2 rs1, 2), (.msstw ms3 rs2 rs1, 4), (.msstd ms3 rs2 rs1, 8)]

/-- The whole-register loads with their register count and the bytes of their elements
(42_load_store.md R236 to R267). -/
def wholeLoads (md : MIdx) (rs1 : XIdx) : List (Instr × Nat × Nat) :=
  [(.mld1mb md rs1, 1, 1), (.mld1mh md rs1, 1, 2), (.mld1mw md rs1, 1, 4), (.mld1md md rs1, 1, 8),
    (.mld2mb md rs1, 2, 1), (.mld2mh md rs1, 2, 2), (.mld2mw md rs1, 2, 4), (.mld2md md rs1, 2, 8),
    (.mld4mb md rs1, 4, 1), (.mld4mh md rs1, 4, 2), (.mld4mw md rs1, 4, 4), (.mld4md md rs1, 4, 8),
    (.mld8mb md rs1, 8, 1), (.mld8mh md rs1, 8, 2), (.mld8mw md rs1, 8, 4), (.mld8md md rs1, 8, 8)]

/-- The whole-register stores with their register count and the bytes of their elements. -/
def wholeStores (ms3 : MIdx) (rs1 : XIdx) : List (Instr × Nat × Nat) :=
  [(.mst1mb ms3 rs1, 1, 1), (.mst1mh ms3 rs1, 1, 2), (.mst1mw ms3 rs1, 1, 4), (.mst1md ms3 rs1, 1, 8),
    (.mst2mb ms3 rs1, 2, 1), (.mst2mh ms3 rs1, 2, 2), (.mst2mw ms3 rs1, 2, 4), (.mst2md ms3 rs1, 2, 8),
    (.mst4mb ms3 rs1, 4, 1), (.mst4mh ms3 rs1, 4, 2), (.mst4mw ms3 rs1, 4, 4), (.mst4md ms3 rs1, 4, 8),
    (.mst8mb ms3 rs1, 8, 1), (.mst8mh ms3 rs1, 8, 2), (.mst8mw ms3 rs1, 8, 4), (.mst8md ms3 rs1, 8, 8)]

/-! ### When an instruction executes -/

/-- The matrix unit is on, and no trapped load or store waits to be resumed
(30_encoding.md R132, steps 2 and 5). -/
def State.ready (s : State) : Prop := s.mstatus.ms ≠ 0#2 ∧ s.xmrstart = 0

/-- A bit of `xmisa` is set (30_encoding.md R132, step 3). -/
def State.has (s : State) (bit : Nat) : Prop := s.cfg.xmisa.getLsbD bit = true

/-- The floating-point unit is on and `frm` is valid (30_encoding.md R132, step 4). -/
def State.floatReady (s : State) : Prop := s.mstatus.fs ≠ 0#2 ∧ s.frm.toNat < 5

/-- Every access of a transfer from row `xmrstart` on is aligned, or split, and reaches admitted main
memory (20_memory.md R84, R87 to R90). -/
def State.reachable (s : State) (store : Bool) (t : Transfer) : Prop :=
  ∀ q k, s.xmrstart.toNat ≤ q → q < t.rows → k < t.rowBytes / t.esize →
    (t.addr q (k * t.esize) % t.esize = 0 ∨ s.cfg.misalignedPolicy = .split) ∧
      ∀ b, b < t.esize → s.reach store (t.addr q (k * t.esize + b)) = .ok

/-- `xmrstart` is zero or names a row of the transfer (42_load_store.md R212, R213, R215). -/
def State.startsIn (s : State) (rows : Nat) : Prop :=
  s.xmrstart = 0 ∨ s.xmrstart.toNat < rows

/-! ### What an instruction leaves alone -/

/-- The epilogue has run (30_encoding.md R131), and one instruction has retired (60_exceptions.md R439). -/
structure Finished (s t : State) : Prop where
  pc : t.pc = s.nextPc
  instret : t.instret = s.instret + 1
  xmrstart : t.xmrstart = 0
  ms : t.mstatus.ms = 3#2

/-- What no completing matrix instruction changes: the configuration, the integer registers, the
privilege, the trap registers, `xmxrm`, `frm`, the bf16 selector, and `mstatus` but for `MS` and `FS`. -/
structure HostKept (s t : State) : Prop where
  cfg : t.cfg = s.cfg
  x : t.x = s.x
  priv : t.priv = s.priv
  xmxrm : t.xmxrm = s.xmxrm
  frm : t.frm = s.frm
  bf16 : t.bf16 = s.bf16
  mstatus : t.mstatus = { s.mstatus with ms := t.mstatus.ms, fs := t.mstatus.fs }
  mTrap : t.mepc = s.mepc ∧ t.mcause = s.mcause ∧ t.mtval = s.mtval ∧ t.mtvec = s.mtvec ∧
    t.medeleg = s.medeleg ∧ t.mideleg = s.mideleg
  sTrap : t.sepc = s.sepc ∧ t.scause = s.scause ∧ t.stval = s.stval ∧ t.stvec = s.stvec

/-- Every matrix register but the listed ones is unchanged. -/
def RegsKept (s t : State) (but : List MIdx) : Prop :=
  ∀ r : MIdx, r ∉ but → t.m[r.toNat]'r.isLt = s.m[r.toNat]'r.isLt

/-- `xmsize` is unchanged. -/
def SizesKept (s t : State) : Prop :=
  t.sizeM = s.sizeM ∧ t.sizeN = s.sizeN ∧ t.sizeK = s.sizeK

/-- Every byte of memory reads as before, and no free value was drawn. -/
structure MemKept (s t : State) : Prop where
  bytes : ∀ a, t.byteAt a = s.byteAt a
  stale : t.stale = s.stale
  draws : t.draws = s.draws

/-- `xmxsat` is unchanged. -/
def SatKept (s t : State) : Prop := t.xmxsat = s.xmxsat

/-- `fflags` and `FS` are unchanged. -/
def FloatKept (s t : State) : Prop := t.fflags = s.fflags ∧ t.mstatus.fs = s.mstatus.fs

/-- An instruction that rewrites the listed matrix registers has completed: memory, `xmsize` and
everything of `HostKept` are as before. -/
structure Rewrites (s t : State) (regs : List MIdx) : Prop where
  finished : Finished s t
  host : HostKept s t
  sizes : SizesKept s t
  mem : MemKept s t
  regs : RegsKept s t regs

/-- Register `r` holds `f i j` at width `w` in rows below `nrows` and columns below `ncols`, and zero
in every other element (the tail rule, 10_state.md R48). -/
def State.Holds (t : State) (w : Nat) (r : MIdx) (nrows ncols : Nat) (f : Nat → Nat → BitVec w) :
    Prop :=
  ∀ i j, i < t.cfg.rows → w * (j + 1) ≤ t.cfg.mlen.bits →
    t.el w r i j = if i < nrows ∧ j < ncols then f i j else 0

/-- The pair `r`, `r+1` holds `f i j` at 64 bits: columns below `ROWS/2` in `r`, the others in `r+1`,
zero outside rows below `nrows` and columns below `ncols` (decision D6). -/
def State.HoldsPair (t : State) (r : MIdx) (nrows ncols : Nat) (f : Nat → Nat → BitVec 64) : Prop :=
  t.Holds 64 r nrows (min ncols (t.cfg.rows / 2)) f ∧
    t.Holds 64 (r + 1#3) nrows (ncols - t.cfg.rows / 2) fun i j => f i (j + t.cfg.rows / 2)

/-- The exception `e` has been taken at the instruction at `s.pc`: the trap registers of the level it
goes to hold the pc, the code and the trap value, the previous level and interrupt enable are saved,
interrupts are off, and the pc is the base of the trap vector (60_exceptions.md R432). -/
def TrapTaken (s t : State) (e : Exc) (tval : Word) : Prop :=
  if s.delegated false e.code then
    t.priv = .s ∧ t.sepc = s.pc ∧ t.scause.toNat = e.code ∧ t.stval = tval ∧
      t.mstatus.spp = (s.priv != .u) ∧ t.mstatus.spie = s.mstatus.sie ∧ t.mstatus.sie = false ∧
      t.pc = s.stvec &&& ~~~3#64 ∧ t.mepc = s.mepc ∧ t.mcause = s.mcause ∧ t.mtval = s.mtval
  else
    t.priv = .m ∧ t.mepc = s.pc ∧ t.mcause.toNat = e.code ∧ t.mtval = tval ∧
      t.mstatus.mpp = s.priv ∧ t.mstatus.mpie = s.mstatus.mie ∧ t.mstatus.mie = false ∧
      t.pc = s.mtvec &&& ~~~3#64 ∧ t.sepc = s.sepc ∧ t.scause = s.scause ∧ t.stval = s.stval

/-- `n` registers from `r` on. -/
def regGroup (r : MIdx) (n : Nat) : List MIdx := (List.range n).map fun k => r + BitVec.ofNat 3 k

/-! ### What a CSR instruction writes -/

/-- The operand of a CSR instruction: the register, or the field itself (47_host_interface.md R404). -/
def State.csrArg (s : State) (imm : Bool) (src : XIdx) : Word :=
  if imm = true then src.setWidth 64 else s.xval src

/-- The value that a CSR instruction makes of the old one (47_host_interface.md R404). -/
def csrMade (op : CsrOp) (old arg : Word) : Word :=
  match op with
  | .write => arg
  | .set => old ||| arg
  | .clear => old &&& ~~~arg

/-! ### Numbers that float patterns stand for -/

/-- The number that a finite value stands for. -/
def FVal.number : FVal → ℚ
  | .fin neg mant exp => (if neg then -1 else 1) * mant * (2 : ℚ) ^ exp
  | _ => 0

/-- The number that pattern `k`, without its sign, stands for; for the pattern of infinity it is the
power of two that follows the largest finite number. -/
def FFormat.magnitude (f : FFormat) (k : Nat) : ℚ :=
  if k < 2 ^ f.fb then k * (2 : ℚ) ^ (f.emin - f.fb)
  else (2 ^ f.fb + k % 2 ^ f.fb : Nat) * (2 : ℚ) ^ ((k / 2 ^ f.fb : Nat) - 1 + f.emin - f.fb)

/-! ### Shapes of statements -/

/-- A pointwise instruction of width `w` completes, whatever its form, and writes `op` of its
operands (45_pointwise_arith.md R313). -/
def PointwiseCompletes (w bit : Nat) (instr : MIdx → MIdx → Src2 → Instr)
    (op : BitVec w → BitVec w → BitVec w) : Prop :=
  ∀ (s : State) (md ms2 : MIdx) (b : Src2),
    s.ready → s.has bit → s.validPW w = true → b.rowOk s = true →
    ∃ t, exec (instr md ms2 b) s = .next t ∧ Rewrites s t [md] ∧ SatKept s t ∧ FloatKept s t ∧
      t.Holds w md s.sM (s.sK / (w / 8)) fun i j => op (s.el w ms2 i j) (b.value s w i j)

/-- A clip instruction of width `w` completes, whatever its form: `value` is the rounded value of an
element, which is clipped to `lo`..`hi` and packed at `w/4` bits, and `xmxsat` is set if some active
element lies outside (46_pointwise_shift_clip.md R362 to R365). -/
def ClipCompletes (w bit : Nat) (instr : MIdx → MIdx → Src2 → Instr) (lo hi : Int)
    (value : BitVec 2 → BitVec w → Nat → Int) : Prop :=
  ∀ (s : State) (md ms2 : MIdx) (b : Src2),
    s.ready → s.has bit → s.validPW w = true → b.rowOk s = true →
    let v := fun i j => value s.xmxrm (s.el w ms2 i j) ((b.value s w i j).toNat % w)
    ∃ t, exec (instr md ms2 b) s = .next t ∧ Rewrites s t [md] ∧ FloatKept s t ∧
      (t.Holds (w / 4) md s.sM (s.sK / (w / 8)) fun i j =>
        BitVec.ofInt (w / 4) (max lo (min hi (v i j)))) ∧
      (t.xmxsat = true ↔
        s.xmxsat = true ∨ ∃ i j, i < s.sM ∧ j < s.sK / (w / 8) ∧ (v i j < lo ∨ hi < v i j))

/-- An integer matrix multiplication with a single accumulator register completes
(41_matmul_int.md R182): `sa`, `sb` say whether `A` and `B` are signed. -/
def IntMulCompletes (ws bit : Nat) (instr : MIdx → MIdx → MIdx → Instr)
    (sa sb : SuOrder → Bool) : Prop :=
  ∀ (s : State) (md ms2 ms1 : MIdx),
    s.ready → s.has bit → md ≠ ms1 → md ≠ ms2 → s.validMM ws s.cfg.rows = true →
    ∃ t, exec (instr md ms2 ms1) s = .next t ∧ Rewrites s t [md] ∧ SatKept s t ∧ FloatKept s t ∧
      t.Holds 32 md s.sM s.sN fun i j =>
        s.el 32 md i j + BitVec.ofInt 32
          ((List.range (s.sK * 8 / ws)).map fun k =>
            intValue (sa s.cfg.suOrder) (s.el ws ms1 i k) *
              intValue (sb s.cfg.suOrder) (s.el ws ms2 j k)).sum

/-- A 16-bit integer matrix multiplication, whose accumulator is a pair, completes
(41_matmul_int.md R182, R183). -/
def IntMulPairCompletes (instr : MIdx → MIdx → MIdx → Instr) (sa sb : SuOrder → Bool) : Prop :=
  ∀ (s : State) (md ms2 ms1 : MIdx),
    s.ready → s.has 2 → md.toNat % 2 = 0 → md ≠ ms1 → md ≠ ms2 → md + 1#3 ≠ ms1 → md + 1#3 ≠ ms2 →
    s.validMM 16 s.cfg.rows = true →
    ∃ t, exec (instr md ms2 ms1) s = .next t ∧ Rewrites s t [md, md + 1#3] ∧ SatKept s t ∧
      FloatKept s t ∧
      t.HoldsPair md s.sM s.sN fun i j =>
        s.accGet .pair 64 md i j + BitVec.ofInt 64
          ((List.range (s.sK / 2)).map fun k =>
            intValue (sa s.cfg.suOrder) (s.el 16 ms1 i k) *
              intValue (sb s.cfg.suOrder) (s.el 16 ms2 j k)).sum

/-- A load of `n` registers completes: byte `b` of row `q` of the group is, in rows that the transfer
covers, the byte of memory at `addr q b` for `b` below `cols`, and zero elsewhere; rows below
`xmrstart` are kept (42_load_store.md R212, R215). -/
def LoadCompletes (i : Instr) (s : State) (md : MIdx) (n : Nat) (t : Transfer) : Prop :=
  ∃ u, exec i s = .next u ∧ Rewrites s u (regGroup md n) ∧ SatKept s u ∧ FloatKept s u ∧
    ∀ r q b, r < n → q < s.cfg.rows → b < s.cfg.mlenb →
      u.el 8 (md + BitVec.ofNat 3 r) q b =
        let g := r * s.cfg.rows + q
        if g < s.xmrstart.toNat then s.el 8 (md + BitVec.ofNat 3 r) q b
        else if g < t.rows ∧ b < t.rowBytes then s.byteAt (t.addr g b) else 0

/-- A store completes: no matrix register changes; a byte of memory that no row from `xmrstart` on
covers is as before; each covered byte holds what one of the elements stored there gives it
(42_load_store.md R213, R215, 20_memory.md R86). -/
def StoreCompletes (i : Instr) (s : State) (ms3 : MIdx) (t : Transfer) : Prop :=
  let covers := fun a q c => s.xmrstart.toNat ≤ q ∧ q < t.rows ∧ c < t.rowBytes ∧ t.addr q c = a
  ∃ u, exec i s = .next u ∧ Finished s u ∧ HostKept s u ∧ SizesKept s u ∧ SatKept s u ∧
    FloatKept s u ∧ RegsKept s u [] ∧
    (∀ a, (∀ q c, ¬ covers a q c) → u.byteAt a = s.byteAt a) ∧
    ∀ a, (∃ q c, covers a q c) → ∃ q c, covers a q c ∧
      u.byteAt a = s.el 8 (ms3 + BitVec.ofNat 3 (q / s.cfg.rows)) (q % s.cfg.rows) c

end Sys2Proof.Machine
end

