-- ==== Sys2Proof/Certificates/Slice0/Obligations.lean ====
section
/-! DEFINITION. The statements for the provers. -/

open Sys2Proof Sys2Proof.Machine

/-! ### Encoding -/

/-- Decoding the word of an instruction gives the instruction back, with every operand at every value
(30_encoding.md R121 to R124). -/
def Obligations.DecodeEncode : Prop := ∀ i : Instr, decode (encode i) = .ok i

/-- A word that decodes to an instruction is the word of that instruction: no bit is dropped and no two
words share an instruction (30_encoding.md R120, R127). -/
def Obligations.EncodeDecode : Prop :=
  ∀ (w : BitVec 32) (i : Instr), decode w = .ok i → encode i = w

/-- Words written out by the spec decode to the instructions they stand for, and reserved words are
refused (95_test_vectors.md, D1 to D37, X1 to X20). -/
def Obligations.DecodeWords : Prop :=
  decode 0x000880AB#32 = .ok (.mmovMm 1 2) ∧ decode 0x020880AB#32 = .ok (.mmovMvX 1 2 1) ∧
  decode 0x1044042B#32 = .ok (.fmmaccH 0 2 1) ∧ decode 0x2045802B#32 = .ok (.mmaqasuB 0 2 1) ∧
  decode 0x36410DAB#32 = .ok (.maddDMx 3 2 2) ∧ decode 0x70440DAB#32 = .ok (.mn4clipuDMm 3 2 1) ∧
  decode 0x0AC7082B#32 = .ok (.mstw 0 12 14) ∧ decode 0x2815012B#32 = .ok (.mld2mb 2 10) ∧
  decode 0x0FFC002B#32 = .ok (.mcfgki 127) ∧ decode 0xFE05002B#32 = .ok (.mcfg 10) ∧
  decode 0x0C00002B#32 = .error (.reserved .uop) ∧ decode 0xA000002B#32 = .error (.reserved .func) ∧
  decode 0x2820002B#32 = .error (.reserved .nf) ∧ decode 0x0E0000AB#32 = .error (.reserved .cfgRd) ∧
  decode 0x0000102B#32 = .error .notMatrix

/-- In the matrix opcode space `uop = 110` and the configuration indices 011 to 110 decode to nothing
(30_encoding.md R127; the configuration index 111 of the immediate form is decision D33). -/
def Obligations.UnassignedReserved : Prop :=
  ∀ w : BitVec 32, w.extractLsb' 0 7 = 0b0101011#7 → w.extractLsb' 12 3 = 0#3 →
    (w.extractLsb' 25 3 = 6#3 → decode w = .error (.reserved .uop)) ∧
    (w.extractLsb' 25 3 = 7#3 → 3 ≤ (w.extractLsb' 28 3).toNat → (w.extractLsb' 28 3).toNat ≤ 6 →
      ∃ why, decode w = .error (.reserved why)) ∧
    ((w.extractLsb' 25 3).toNat < 4 → 10 ≤ (w.extractLsb' 28 4).toNat →
      decode w = .error (.reserved .func))

/-! ### Steps -/

/-- A step runs the instruction that the bytes at `pc` decode to; `step` adds nothing around `exec`. Each byte that
the fetch sees is the one in memory or one that a store has replaced there since the last `FENCE.I` (20_memory.md
R94); where such a byte differs, the count of draws goes on. The form of that free choice is the model's, log 11. -/
def Obligations.StepRunsDecoded : Prop :=
  ∀ (s : State) (i : Instr), s.fetchFault = none →
    s.fetchWord = wordOfBytes (s.fetchByte 0) (s.fetchByte 1) (s.fetchByte 2) (s.fetchByte 3) ∧
    (∀ k, s.fetchByte k = s.byteAt (s.fetchAddr k) ∨
      (s.fetchAddr k, s.fetchByte k) ∈ s.stale) ∧
    (s.fetchCoherent = true →
      decode (wordOfBytes (s.byteAt (s.fetchAddr 0)) (s.byteAt (s.fetchAddr 1))
        (s.byteAt (s.fetchAddr 2)) (s.byteAt (s.fetchAddr 3))) = .ok i →
      step s = exec i s) ∧
    (decode s.fetchWord = .ok i → step s = exec i s.afterFetch)

/-- A fetched word of the matrix opcode space that is reserved follows `RESERVED_POLICY` (decision D20), and a
fetched host instruction that spec/ describes runs (60_exceptions.md R429, 47_host_interface.md R408, R409). That a
word with another `func3` follows `RESERVED_POLICY` too is the model's choice, log 33: 70_reset_and_hazards.md R467
row 1 lists it as RESERVED, 30_encoding.md R127 and vector X20 leave it to the host. -/
def Obligations.StepOtherWords : Prop :=
  ∀ s : State, s.fetchFault = none →
    let reserved := fun why =>
      (s.cfg.reservedPolicy = .refuse → step s = .refused (.reserved why)) ∧
      (s.cfg.reservedPolicy = .illegalInstruction →
        step s = .next (s.afterFetch.illegal s.fetchWord))
    (∀ why, decode s.fetchWord = .error (.reserved why) → reserved why) ∧
    (s.fetchWord.extractLsb' 0 7 = 0b0101011#7 → s.fetchWord.extractLsb' 12 3 ≠ 0#3 →
      reserved .func3) ∧
    (∀ h, decode s.fetchWord = .error .notMatrix → decodeHost s.fetchWord = some h →
      step s = execHost h s.fetchWord s.afterFetch)

/-- A misaligned `pc`, or an instruction byte that cannot be fetched, raises the fetch exception before
anything else (60_exceptions.md R421, R431). -/
def Obligations.FetchExceptions : Prop :=
  ∀ s : State, s.cfg.compressed = false →
    (s.pc.toNat % 4 ≠ 0 →
      ∃ t, step s = .next t ∧ TrapTaken s t .fetchMisaligned s.pc ∧ t.m = s.m ∧ t.x = s.x ∧
        t.mem = s.mem ∧ t.xmrstart = s.xmrstart ∧ t.mstatus.ms = s.mstatus.ms) ∧
    (s.pc.toNat % 4 = 0 → s.pc.toNat < 2 ^ s.cfg.xlen.bits →
      s.fetchReach s.pc.toNat = .accessFault →
      ∃ t, step s = .next t ∧ TrapTaken s t .fetchAccess s.pc ∧ t.m = s.m ∧ t.x = s.x ∧
        t.mem = s.mem ∧ t.xmrstart = s.xmrstart ∧ t.mstatus.ms = s.mstatus.ms)

/-- The state right after reset meets the invariant. Its configuration and the register values that the
spec leaves open are the model's: logs 1 to 5. -/
def Obligations.InvReset : Prop := State.reset.Inv

/-- Every step from a state that meets the invariant gives a state that meets it. -/
def Obligations.InvStep : Prop := ∀ s t : State, s.Inv → step s = .next t → t.Inv

/-- The constant CSRs: `xmregsize` is at `0xCC2`, `xmlenb` at `0xCC3`, a CSR instruction that reads them with `MS`
on, from any privilege level, gives `ROWS*MLENB` and `MLENB` for each `MLEN`, and no step changes the configuration nor
what they and `xmisa` read as (10_state.md R49, R50). -/
def Obligations.ConstantsKept : Prop :=
  (∀ s : State,
    Csr.address s.cfg .xmregsize = 0xCC2#12 ∧ Csr.address s.cfg .xmlenb = 0xCC3#12 ∧
    (s.csrRead .xmregsize).toNat = s.cfg.mlen.bits / 32 * (s.cfg.mlen.bits / 8) ∧
    (s.csrRead .xmlenb).toNat = s.cfg.mlen.bits / 8 ∧
    ∀ r ∈ [Csr.xmlenb, .xmregsize], ∀ word op imm rd addr, csrAt s.cfg addr = some r →
      s.mstatus.ms ≠ 0#2 → op ≠ .write →
      execHost (.csr op imm rd addr 0) word s = .next (s.setX rd (s.csrRead r)).advance) ∧
  ∀ s t : State, step s = .next t →
    t.cfg = s.cfg ∧ ∀ r ∈ [Csr.xmlenb, .xmregsize, .xmisa], t.csrRead r = s.csrRead r

/-- After reset the hart is in machine mode with `MIE = 0` and `MPRV = 0` (70_reset_and_hazards.md R460),
and the constant CSRs hold their constants (10_state.md R61), those of the model's configuration
(log 1). -/
def Obligations.ResetHost : Prop :=
  State.reset.priv = .m ∧ State.reset.mstatus.mie = false ∧ State.reset.mstatus.mprv = false ∧
  (State.reset.csrRead .xmlenb).toNat = State.reset.cfg.mlen.bits / 8 ∧
  (State.reset.csrRead .xmregsize).toNat =
    State.reset.cfg.mlen.bits / 32 * (State.reset.cfg.mlen.bits / 8) ∧
  State.reset.csrRead .xmisa = State.reset.cfg.xmisa.setWidth 64

/-! ### Rules for all instructions -/

/-- No matrix instruction writes an integer register, and none but a store changes memory. -/
def Obligations.NoIntegerWrite : Prop :=
  ∀ (i : Instr) (s t : State), exec i s = .next t →
    t.x = s.x ∧ (isStore i = false → t.mem = s.mem)

/-- Only the clip instructions change `xmxsat` and only the float multiplications change `fflags`; the
others leave the flags alone. A flag is set and never cleared. -/
def Obligations.FlagWriters : Prop :=
  ∀ (i : Instr) (s t : State), exec i s = .next t →
    (isClip i = false → t.xmxsat = s.xmxsat) ∧ (s.xmxsat = true → t.xmxsat = true) ∧
    (isFloatMul i = false → t.fflags = s.fflags ∧ t.mstatus.fs = s.mstatus.fs) ∧
    ∀ k, s.fflags.getLsbD k = true → t.fflags.getLsbD k = true

/-- Stores and configuration instructions change no matrix register, and only configuration
instructions change `xmsize`. -/
def Obligations.RegisterWriters : Prop :=
  ∀ (i : Instr) (s t : State), exec i s = .next t →
    ((isStore i || isConfig i) = true → t.m = s.m) ∧ (isConfig i = false → SizesKept s t)

/-- Every next state of a matrix instruction is that of its epilogue, where `instret` counts one retired
instruction, or that of a trap, where it counts none. An instruction that is no load or store completes, raises
IllegalInstruction, or is refused as RESERVED (00_scope.md R9, 30_encoding.md R131, 60_exceptions.md R439). That
each completing one makes `MS` Dirty is decision D19; that one that traps does not retire is the model's, log 34. -/
def Obligations.OutcomesOfExec : Prop :=
  (∀ (i : Instr) (s t : State), exec i s = .next t →
    Finished s t ∨ ∃ e tval, TrapTaken s t e tval ∧ t.instret = s.instret) ∧
  ∀ (i : Instr) (s : State), isLoad i = false → isStore i = false →
    (∃ t, exec i s = .next t ∧ Finished s t ∧ HostKept s t) ∨
    exec i s = .next (s.illegal (encode i)) ∨ ∃ why, exec i s = .refused (.reserved why)

/-! ### Exceptions -/

/-- With `MS` Off every matrix instruction raises IllegalInstruction, and so does every CSR instruction
on a matrix CSR but `xmcsr` (60_exceptions.md R423). That `xmcsr` is the register exempt from the gate, and its
layout, are decisions D18 and D15: reading it gives its value and changes nothing else, and a CSR instruction
that writes it sets `xmxsat` and `xmxrm`. -/
def Obligations.OffGate : Prop :=
  ∀ s : State, s.mstatus.ms = 0#2 →
    (∀ i : Instr, exec i s = .next (s.illegal (encode i))) ∧
    (∀ r ∈ [Csr.xmrstart, .xmxrm, .xmxsat, .xmsize, .xmregsize, .xmlenb, .xmisa],
      ∀ word op imm rd addr src, csrAt s.cfg addr = some r →
        execHost (.csr op imm rd addr src) word s = .next (s.illegal word)) ∧
    ∀ word op imm rd addr src, csrAt s.cfg addr = some .xmcsr →
      (op ≠ .write → src = 0 →
        execHost (.csr op imm rd addr src) word s =
          .next (s.setX rd (s.csrRead .xmcsr)).advance) ∧
      (op = .write ∨ src ≠ 0 →
        let v := csrMade op (s.csrRead .xmcsr) (s.csrArg imm src)
        v.toNat < 8 →
        execHost (.csr op imm rd addr src) word s =
          .next ((({ s with xmxsat := v.getLsbD 0, xmxrm := v.extractLsb' 1 2 } : State).dirtyMS.setX
            rd (s.csrRead .xmcsr)).advance))

/-- An instruction whose bit of `xmisa` is 0 raises IllegalInstruction (60_exceptions.md R424); bit 1,
that of `mmaqa*.b`, is compulsory and never 0 (10_state.md R44). -/
def Obligations.FeatureGate : Prop :=
  ∀ (s : State) (md ms2 ms1 : MIdx) (b : Src2),
    let off := fun bit => s.cfg.xmisa.getLsbD bit = false
    let ill := fun i => exec i s = .next (s.illegal (encode i))
    (off 3 → ill (.fmmaccH md ms2 ms1)) ∧ (off 4 → ill (.fmmaccS md ms2 ms1)) ∧
    (off 5 → ill (.fmmaccD md ms2 ms1)) ∧ (off 8 → ill (.fwmmaccH md ms2 ms1)) ∧
    (off 9 → ill (.fwmmaccS md ms2 ms1)) ∧
    s.cfg.xmisa.getLsbD 1 = true ∧
    (off 2 → ∀ i ∈ [Instr.mmaqaH md ms2 ms1, .mmaqauH md ms2 ms1, .mmaqausH md ms2 ms1,
      .mmaqasuH md ms2 ms1], ill i) ∧
    (off 0 → ∀ i ∈ [Instr.pmmaqaB md ms2 ms1, .pmmaqauB md ms2 ms1, .pmmaqausB md ms2 ms1,
      .pmmaqasuB md ms2 ms1], ill i) ∧
    (off 7 → ∀ i ∈ pointwiseS md ms2 b, ill i) ∧
    (off 6 → ∀ i ∈ pointwiseD md ms2 b, ill i)

/-- With `FS` Off, or with `frm` at 101 to 111, the five float multiplications raise IllegalInstruction
(60_exceptions.md R425, R426). -/
def Obligations.FloatGates : Prop :=
  ∀ (s : State) (md ms2 ms1 : MIdx), s.mstatus.fs = 0#2 ∨ 5 ≤ s.frm.toNat →
    ∀ i ∈ [Instr.fmmaccH md ms2 ms1, .fmmaccS md ms2 ms1, .fmmaccD md ms2 ms1,
      .fwmmaccH md ms2 ms1, .fwmmaccS md ms2 ms1], exec i s = .next (s.illegal (encode i))

/-- The record of IllegalInstruction: the trap is taken with code 2 at the instruction, the trap value is
the word or 0, and no matrix register, matrix CSR, `MS`, `FS`, `fcsr`, integer register or memory byte
changes (60_exceptions.md R422; which trap value is decision D39, log 24). -/
def Obligations.IllegalRecord : Prop :=
  ∀ (s : State) (word : BitVec 32),
    let t := s.illegal word
    (TrapTaken s t .illegal (word.setWidth 64) ∨ TrapTaken s t .illegal 0) ∧
    t.m = s.m ∧ t.xmrstart = s.xmrstart ∧ t.xmxrm = s.xmxrm ∧ t.xmxsat = s.xmxsat ∧ SizesKept s t ∧
    t.mstatus.ms = s.mstatus.ms ∧ t.mstatus.fs = s.mstatus.fs ∧ t.fflags = s.fflags ∧
    t.frm = s.frm ∧ t.bf16 = s.bf16 ∧ t.x = s.x ∧ t.mem = s.mem

/-- Trap entry saves the pc, the cause, the trap value, the level and the interrupt enable, goes to the
vector (base + 4*cause for a vectored interrupt), and leaves the matrix state and `instret` alone. The model's
choices: a trap from machine mode is not delegated, log 16, and counts no retired instruction, log 34. -/
def Obligations.TrapEntry : Prop :=
  ∀ (s : State) (interrupt : Bool) (code : Nat) (tval : Word),
    let t := s.takeTrap interrupt code tval
    let deleg := if interrupt then s.mideleg else s.medeleg
    let target := fun tvec : Word => if interrupt = true ∧ tvec.extractLsb' 0 2 = 1#2
      then wrapX s.cfg.xlen ((tvec &&& ~~~3#64) + BitVec.ofNat 64 (4 * code))
      else tvec &&& ~~~3#64
    t.m = s.m ∧ t.xmrstart = s.xmrstart ∧ t.xmxrm = s.xmxrm ∧ t.xmxsat = s.xmxsat ∧
    SizesKept s t ∧ t.mstatus.ms = s.mstatus.ms ∧ t.instret = s.instret ∧
    (s.priv = .m ∨ deleg.getLsbD code = false →
      t.priv = .m ∧ t.mepc = s.pc ∧ t.mcause = causeWord s.cfg.xlen interrupt code ∧
      t.mtval = tval ∧ t.mstatus.mpp = s.priv ∧ t.mstatus.mpie = s.mstatus.mie ∧
      t.mstatus.mie = false ∧ t.pc = target s.mtvec) ∧
    (s.priv ≠ .m ∧ deleg.getLsbD code = true →
      t.priv = .s ∧ t.sepc = s.pc ∧ t.scause = causeWord s.cfg.xlen interrupt code ∧
      t.stval = tval ∧ t.mstatus.spp = (s.priv != .u) ∧ t.mstatus.spie = s.mstatus.sie ∧
      t.mstatus.sie = false ∧ t.pc = target s.stvec)

/-- `MRET` after an exception taken to machine mode from a level gives back the level, the interrupt enable and the
pc of the instruction that raised it, and `SRET` likewise; the matrix registers, the matrix CSRs, `MS`, the integer
registers and memory are as the trap left them, and each return retires. From a lower level they are illegal
(60_exceptions.md R433; the details are the model's, logs 16 and 34). -/
def Obligations.TrapReturn : Prop :=
  ∀ (s : State) (e : Exc) (tval : Word) (word : BitVec 32),
    let resumes := fun t : State => t.pc = s.pc ∧ t.priv = s.priv ∧ t.m = s.m ∧
      t.xmrstart = s.xmrstart ∧ t.xmxrm = s.xmxrm ∧ t.xmxsat = s.xmxsat ∧ SizesKept s t ∧
      t.mstatus.ms = s.mstatus.ms ∧ t.mem = s.mem ∧ t.x = s.x ∧ t.instret = s.instret + 1
    (∃ t, execHost .mret word (s.trapToM false e.code tval) = .next t ∧ resumes t ∧
      t.mstatus.mie = s.mstatus.mie) ∧
    (s.priv ≠ .m →
      ∃ t, execHost .sret word (s.trapToS false e.code tval) = .next t ∧ resumes t ∧
        t.mstatus.sie = s.mstatus.sie) ∧
    (s.priv ≠ .m → execHost .mret word s = .next (s.illegal word)) ∧
    (s.priv = .u → execHost .sret word s = .next (s.illegal word))

/-! ### RESERVED operands, under `RESERVED_POLICY = refuse` -/

/-- A non-zero `xmrstart` at an instruction that is no load or store and passes the earlier checks is
RESERVED (30_encoding.md R132, decision D23). -/
def Obligations.StartRowReserved : Prop :=
  ∀ (i : Instr) (s : State), isLoad i = false → isStore i = false → s.mstatus.ms ≠ 0#2 →
    s.cfg.xmisa = 0x3FF#10 → s.floatReady → s.xmrstart ≠ 0 → s.cfg.reservedPolicy = .refuse →
    exec i s = .refused (.reserved .startRow)

/-- A matrix multiplication whose destination is a multiplicand is RESERVED (30_encoding.md R133,
70_reset_and_hazards.md R466; decision D38). -/
def Obligations.OverlapReserved : Prop :=
  ∀ (s : State) (md ms2 ms1 : MIdx), s.ready → s.cfg.xmisa = 0x3FF#10 → s.floatReady →
    s.cfg.reservedPolicy = .refuse →
    let no := fun i => exec i s = .refused (.reserved .overlap)
    (md = ms1 ∨ md = ms2 →
      ∀ i ∈ [Instr.fmmaccS md ms2 ms1, .fwmmaccH md ms2 ms1, .mmaqaB md ms2 ms1,
        .mmaqauB md ms2 ms1, .mmaqausB md ms2 ms1, .mmaqasuB md ms2 ms1, .pmmaqaB md ms2 ms1,
        .pmmaqauB md ms2 ms1, .pmmaqausB md ms2 ms1, .pmmaqasuB md ms2 ms1], no i) ∧
    (ms2.toNat % 2 = 0 → md = ms1 ∨ md = ms2 ∨ md = ms2 + 1#3 → no (.fmmaccH md ms2 ms1)) ∧
    (md.toNat % 2 = 0 → md = ms1 ∨ md = ms2 ∨ md + 1#3 = ms1 ∨ md + 1#3 = ms2 →
      ∀ i ∈ [Instr.fmmaccD md ms2 ms1, .fwmmaccS md ms2 ms1, .mmaqaH md ms2 ms1,
        .mmaqauH md ms2 ms1, .mmaqausH md ms2 ms1, .mmaqasuH md ms2 ms1], no i)

/-- An odd first register of a pair is RESERVED (10_state.md R34). -/
def Obligations.OddPairReserved : Prop :=
  ∀ (s : State) (md ms2 ms1 : MIdx), s.ready → s.cfg.xmisa = 0x3FF#10 → s.floatReady →
    s.cfg.reservedPolicy = .refuse →
    (ms2.toNat % 2 = 1 → exec (.fmmaccH md ms2 ms1) s = .refused (.reserved .oddPair)) ∧
    (md.toNat % 2 = 1 →
      ∀ i ∈ [Instr.fmmaccD md ms2 ms1, .fwmmaccS md ms2 ms1, .mmaqaH md ms2 ms1,
        .mmaqauH md ms2 ms1, .mmaqausH md ms2 ms1, .mmaqasuH md ms2 ms1],
        exec i s = .refused (.reserved .oddPair))

/-- A matrix size outside the limits is RESERVED. For each of the 17 matrix multiplications: `sizeM`, `sizeN`,
`sizeK` past its limit (`sizeN` up to `2*ROWS` for `fmmacc.h`) or a `sizeK` that is no multiple of the bytes of a
source element (10_state.md R46); for each pointwise instruction: `sizeM` or `sizeK` past its limit or a `sizeK`
that is no multiple of the bytes of an element (10_state.md R47). That these are RESERVED, and the divisibility,
is decision D21. -/
def Obligations.ShapeReserved : Prop :=
  ∀ (s : State) (md ms2 ms1 : MIdx) (b : Src2), s.ready → s.cfg.xmisa = 0x3FF#10 → s.floatReady →
    s.cfg.reservedPolicy = .refuse →
    let no := fun i => exec i s = .refused (.reserved .shape)
    let big := s.cfg.rows < s.sM ∨ s.cfg.mlenb < s.sK
    (matmulOk md ms2 ms1 = true →
      ∀ p ∈ [(Instr.mmaqaB md ms2 ms1, 1), (.mmaqauB md ms2 ms1, 1), (.mmaqausB md ms2 ms1, 1),
        (.mmaqasuB md ms2 ms1, 1), (.pmmaqaB md ms2 ms1, 1), (.pmmaqauB md ms2 ms1, 1),
        (.pmmaqausB md ms2 ms1, 1), (.pmmaqasuB md ms2 ms1, 1), (.fmmaccS md ms2 ms1, 4),
        (.fwmmaccH md ms2 ms1, 2)],
        big ∨ s.cfg.rows < s.sN ∨ s.sK % p.2 ≠ 0 → no p.1) ∧
    (matmulPairOk md ms2 ms1 = true →
      ∀ p ∈ [(Instr.mmaqaH md ms2 ms1, 2), (.mmaqauH md ms2 ms1, 2), (.mmaqausH md ms2 ms1, 2),
        (.mmaqasuH md ms2 ms1, 2), (.fwmmaccS md ms2 ms1, 4), (.fmmaccD md ms2 ms1, 8)],
        big ∨ s.cfg.rows < s.sN ∨ s.sK % p.2 ≠ 0 → no p.1) ∧
    (matmulBPairOk md ms2 ms1 = true → big ∨ 2 * s.cfg.rows < s.sN ∨ s.sK % 2 ≠ 0 →
      no (.fmmaccH md ms2 ms1)) ∧
    (b.rowOk s = true →
      (big ∨ s.sK % 4 ≠ 0 → ∀ i ∈ pointwiseS md ms2 b, no i) ∧
      (big ∨ s.sK % 8 ≠ 0 → ∀ i ∈ pointwiseD md ms2 b, no i))

/-- A row index not below `ROWS` is RESERVED in the `mv.x` and `mv.i` forms of the move and of all 14 pointwise
operations; for `mv.x` the index is the whole register value (43_move.md R281, 45_pointwise_arith.md R312,
decision D31). -/
def Obligations.RowIndexReserved : Prop :=
  ∀ (s : State) (md ms2 ms1 : MIdx) (rs1 : XcIdx) (u : BitVec 3), s.ready →
    s.cfg.reservedPolicy = .refuse →
    let no := fun i => exec i s = .refused (.reserved .rowIndex)
    (s.cfg.rows ≤ (s.xval (8#5 + rs1.setWidth 5)).toNat →
      no (.mmovMvX md ms1 rs1) ∧
      (s.has 7 → ∀ i ∈ pointwiseS md ms2 (.mvx ms1 rs1), no i) ∧
      (s.has 6 → ∀ i ∈ pointwiseD md ms2 (.mvx ms1 rs1), no i)) ∧
    (s.cfg.rows ≤ u.toNat →
      no (.mmovMvI md ms1 u) ∧
      (s.has 7 → ∀ i ∈ pointwiseS md ms2 (.mvi ms1 u), no i) ∧
      (s.has 6 → ∀ i ∈ pointwiseD md ms2 (.mvi ms1 u), no i))

/-- Every one of the 48 loads and stores is RESERVED for an `xmrstart` past its rows; the 16 normal and stream
forms for a size outside the limits or no multiple of the element; the 32 whole-register forms for a register
number that is no multiple of the register count (42_load_store.md R211 to R215, decisions D21, D24, D29). -/
def Obligations.TransferReserved : Prop :=
  ∀ (s : State) (r : MIdx) (rs2 rs1 : XIdx), s.mstatus.ms ≠ 0#2 → s.cfg.reservedPolicy = .refuse →
    let no := fun i why => exec i s = .refused (.reserved why)
    (∀ p ∈ shapedLoads r rs2 rs1 ++ shapedStores r rs2 rs1,
      (s.cfg.rows < s.sM ∨ s.cfg.mlenb < s.sK ∨ s.sK % p.2 ≠ 0 → no p.1 .shape) ∧
      (s.validPW (8 * p.2) = true → s.xmrstart ≠ 0 → s.sM ≤ s.xmrstart.toNat →
        no p.1 .startRow)) ∧
    ∀ p ∈ wholeLoads r rs1 ++ wholeStores r rs1,
      (r.toNat % p.2.1 ≠ 0 → no p.1 .registerAlign) ∧
      (r.toNat % p.2.1 = 0 → s.xmrstart ≠ 0 → p.2.1 * s.cfg.rows ≤ s.xmrstart.toNat →
        no p.1 .startRow)

/-! ### Moves and configuration -/

/-- The moves complete: the whole register, one row in every row, or the scalar in every `XLEN`-bit
element; the matrix size is not read (43_move.md R280 to R286, decisions D30, D31). -/
def Obligations.MovesComplete : Prop :=
  ∀ (s : State) (md ms1 : MIdx) (rs1 : XcIdx) (u : BitVec 3), s.ready →
    let copies := fun i (f : Nat → Row) =>
      ∃ t, exec i s = .next t ∧ Rewrites s t [md] ∧ SatKept s t ∧ FloatKept s t ∧
        ∀ q, q < s.cfg.rows → t.mrow md q = f q
    copies (.mmovMm md ms1) (fun q => s.mrow ms1 q) ∧
    ((s.xval (8#5 + rs1.setWidth 5)).toNat < s.cfg.rows →
      copies (.mmovMvX md ms1 rs1) fun _ => s.mrow ms1 (s.xval (8#5 + rs1.setWidth 5)).toNat) ∧
    (u.toNat < s.cfg.rows → copies (.mmovMvI md ms1 u) fun _ => s.mrow ms1 u.toNat) ∧
    ∃ t, exec (.mmovMx md rs1) s = .next t ∧ Rewrites s t [md] ∧ SatKept s t ∧ FloatKept s t ∧
      ∀ q j, q < s.cfg.rows → s.cfg.xlen.bits * (j + 1) ≤ s.cfg.mlen.bits →
        t.el s.cfg.xlen.bits md q j =
          (s.xval (8#5 + rs1.setWidth 5)).setWidth s.cfg.xlen.bits

/-- The configuration instructions complete, each setting the field it names and no other
(44_config.md R290 to R301); a register value that does not fit is RESERVED (44_config.md R292, decision D33). -/
def Obligations.ConfigComplete : Prop :=
  ∀ (s : State) (u : BitVec 7) (rs1 : XIdx), s.ready →
    let v := s.xval rs1
    let sets := fun i (m n : BitVec 8) (k : BitVec 16) =>
      ∃ t, exec i s = .next t ∧ Finished s t ∧ HostKept s t ∧ MemKept s t ∧ RegsKept s t [] ∧
        SatKept s t ∧ FloatKept s t ∧ t.sizeM = m ∧ t.sizeN = n ∧ t.sizeK = k
    sets (.mcfgki u) s.sizeM s.sizeN (u.setWidth 16) ∧
    sets (.mcfgmi u) (u.setWidth 8) s.sizeN s.sizeK ∧
    sets (.mcfgni u) s.sizeM (u.setWidth 8) s.sizeK ∧
    (v.toNat < 2 ^ 16 → sets (.mcfgk rs1) s.sizeM s.sizeN (v.setWidth 16)) ∧
    (v.toNat < 2 ^ 8 → sets (.mcfgm rs1) (v.setWidth 8) s.sizeN s.sizeK) ∧
    (v.toNat < 2 ^ 8 → sets (.mcfgn rs1) s.sizeM (v.setWidth 8) s.sizeK) ∧
    (v.toNat < 2 ^ 32 →
      sets (.mcfg rs1) (v.extractLsb' 0 8) (v.extractLsb' 8 8) (v.extractLsb' 16 16)) ∧
    (s.cfg.reservedPolicy = .refuse →
      let no := fun i => exec i s = .refused (.reserved .cfgValue)
      (2 ^ 16 ≤ v.toNat → no (.mcfgk rs1)) ∧ (2 ^ 8 ≤ v.toNat → no (.mcfgm rs1) ∧ no (.mcfgn rs1)) ∧
      (2 ^ 32 ≤ v.toNat → no (.mcfg rs1)))

/-! ### Pointwise instructions -/

/-- `madd` completes in all forms and widths with the wrapping sum (45_pointwise_arith.md R314). -/
def Obligations.MaddCompletes : Prop :=
  PointwiseCompletes 32 7 (withSrc2 .maddSMm .maddSMvX .maddSMvI .maddSMx) (fun a b => a + b) ∧
  PointwiseCompletes 64 6 (withSrc2 .maddDMm .maddDMvX .maddDMvI .maddDMx) (fun a b => a + b)

/-- `msub` completes in all forms and widths; `ms2` is the minuend (45_pointwise_arith.md R314). -/
def Obligations.MsubCompletes : Prop :=
  PointwiseCompletes 32 7 (withSrc2 .msubSMm .msubSMvX .msubSMvI .msubSMx) (fun a b => a - b) ∧
  PointwiseCompletes 64 6 (withSrc2 .msubDMm .msubDMvX .msubDMvI .msubDMx) (fun a b => a - b)

/-- `mmul` completes in all forms and widths with the low half of the product
(45_pointwise_arith.md R314). -/
def Obligations.MmulCompletes : Prop :=
  PointwiseCompletes 32 7 (withSrc2 .mmulSMm .mmulSMvX .mmulSMvI .mmulSMx)
    (fun a b => (a.setWidth 64 * b.setWidth 64).setWidth 32) ∧
  PointwiseCompletes 64 6 (withSrc2 .mmulDMm .mmulDMvX .mmulDMvI .mmulDMx)
    (fun a b => (a.setWidth 128 * b.setWidth 128).setWidth 64)

/-- `mmulh` completes in all forms and widths with the high half of the signed product
(45_pointwise_arith.md R314, decision D34). -/
def Obligations.MmulhCompletes : Prop :=
  PointwiseCompletes 32 7 (withSrc2 .mmulhSMm .mmulhSMvX .mmulhSMvI .mmulhSMx)
    (fun a b => (a.signExtend 64 * b.signExtend 64).extractLsb' 32 32) ∧
  PointwiseCompletes 64 6 (withSrc2 .mmulhDMm .mmulhDMvX .mmulhDMvI .mmulhDMx)
    (fun a b => (a.signExtend 128 * b.signExtend 128).extractLsb' 64 64)

/-- The second operand of the four forms: the element of `M[ms1]`, the element of the row that the
register or the immediate names, or the scalar, sign-extended when `XLEN` is below the width and cut to
its low bits otherwise (45_pointwise_arith.md R312, decisions D31, D35). -/
def Obligations.SecondOperand : Prop :=
  ∀ (s : State) (w i j : Nat) (ms1 : MIdx) (rs1 : XcIdx) (u : BitVec 3),
    let v := s.xval (8#5 + rs1.setWidth 5)
    (Src2.mm ms1).value s w i j = (s.mrow ms1 i).extractLsb' (w * j) w ∧
    (Src2.mvx ms1 rs1).value s w i j = (s.mrow ms1 v.toNat).extractLsb' (w * j) w ∧
    (Src2.mvi ms1 u).value s w i j = (s.mrow ms1 u.toNat).extractLsb' (w * j) w ∧
    (s.cfg.xlen = .x32 → (Src2.mx rs1).value s 64 i j = (v.setWidth 32).signExtend 64) ∧
    (s.cfg.xlen = .x32 → (Src2.mx rs1).value s 32 i j = v.setWidth 32) ∧
    (s.cfg.xlen = .x64 → (Src2.mx rs1).value s 64 i j = v) ∧
    (s.cfg.xlen = .x64 → (Src2.mx rs1).value s 32 i j = v.setWidth 32)

/-- The rounding increment in the four modes of `xmxrm`, and none for a shift by 0
(10_state.md R40, R41, decision D37). -/
def Obligations.RoundingIncrement : Prop :=
  ∀ (w : Nat) (v : BitVec w) (d : Nat),
    (∀ rm, roundInc rm v 0 = 0) ∧
    (0 < d → d < w →
      roundInc 0#2 v d = (v.getLsbD (d - 1)).toNat ∧
      roundInc 1#2 v d =
        (v.getLsbD (d - 1) && (v.extractLsb' 0 (d - 1) != 0 || v.getLsbD d)).toNat ∧
      roundInc 2#2 v d = 0 ∧
      roundInc 3#2 v d = (!v.getLsbD d && v.extractLsb' 0 d != 0).toNat)

/-- `msra` completes in all forms and widths with the rounded arithmetic shift; the shift amount is the
second operand modulo the width (46_pointwise_shift_clip.md R361, R363). -/
def Obligations.MsraCompletes : Prop :=
  ∀ (s : State) (md ms2 : MIdx) (b : Src2), s.ready → b.rowOk s = true →
    (s.has 7 → s.validPW 32 = true →
      ∃ t, exec (withSrc2 .msraSMm .msraSMvX .msraSMvI .msraSMx md ms2 b) s = .next t ∧
        Rewrites s t [md] ∧ SatKept s t ∧ FloatKept s t ∧
        t.Holds 32 md s.sM (s.sK / 4) fun i j =>
          let d := (b.value s 32 i j).toNat % 32
          (s.el 32 ms2 i j).sshiftRight d +
            BitVec.ofNat 32 (roundInc s.xmxrm (s.el 32 ms2 i j) d)) ∧
    (s.has 6 → s.validPW 64 = true →
      ∃ t, exec (withSrc2 .msraDMm .msraDMvX .msraDMvI .msraDMx md ms2 b) s = .next t ∧
        Rewrites s t [md] ∧ SatKept s t ∧ FloatKept s t ∧
        t.Holds 64 md s.sM (s.sK / 8) fun i j =>
          let d := (b.value s 64 i j).toNat % 64
          (s.el 64 ms2 i j).sshiftRight d +
            BitVec.ofNat 64 (roundInc s.xmxrm (s.el 64 ms2 i j) d))

/-- `mn4clip` and `mn4clipu` complete in all forms and widths: the rounded signed or unsigned value, clipped to
a quarter of the width and packed from element 0 on, with `xmxsat` (46_pointwise_shift_clip.md R363, R364,
decision D36). -/
def Obligations.ClipsComplete : Prop :=
  ClipCompletes 32 7 (withSrc2 .mn4clipSMm .mn4clipSMvX .mn4clipSMvI .mn4clipSMx) (-128) 127
    (fun rm a d => a.toInt / 2 ^ d + roundInc rm a d) ∧
  ClipCompletes 64 6 (withSrc2 .mn4clipDMm .mn4clipDMvX .mn4clipDMvI .mn4clipDMx) (-32768) 32767
    (fun rm a d => a.toInt / 2 ^ d + roundInc rm a d) ∧
  ClipCompletes 32 7 (withSrc2 .mn4clipuSMm .mn4clipuSMvX .mn4clipuSMvI .mn4clipuSMx) 0 255
    (fun rm a d => (a.toNat : Int) / 2 ^ d + roundInc rm a d) ∧
  ClipCompletes 64 6 (withSrc2 .mn4clipuDMm .mn4clipuDMvX .mn4clipuDMvI .mn4clipuDMx) 0 65535
    (fun rm a d => (a.toNat : Int) / 2 ^ d + roundInc rm a d)

/-! ### Integer matrix multiplication -/

/-- The 8-bit multiplications complete (41_matmul_int.md R186 to R189); which operand of the mixed forms
is signed follows `SU_ORDER` (decision D9). -/
def Obligations.MmaqaByteCompletes : Prop :=
  IntMulCompletes 8 1 .mmaqaB (fun _ => true) (fun _ => true) ∧
  IntMulCompletes 8 1 .mmaqauB (fun _ => false) (fun _ => false) ∧
  IntMulCompletes 8 1 .mmaqausB (fun o => o == .bFirst) (fun o => o == .aFirst) ∧
  IntMulCompletes 8 1 .mmaqasuB (fun o => o == .aFirst) (fun o => o == .bFirst)

/-- The 4-bit multiplications complete, over `2*sizeK` columns (41_matmul_int.md R184, R194 to R197,
decisions D8, D9). -/
def Obligations.PmmaqaCompletes : Prop :=
  IntMulCompletes 4 0 .pmmaqaB (fun _ => true) (fun _ => true) ∧
  IntMulCompletes 4 0 .pmmaqauB (fun _ => false) (fun _ => false) ∧
  IntMulCompletes 4 0 .pmmaqausB (fun o => o == .bFirst) (fun o => o == .aFirst) ∧
  IntMulCompletes 4 0 .pmmaqasuB (fun o => o == .aFirst) (fun o => o == .bFirst)

/-- The 16-bit multiplications complete, with their accumulator split by column over a register pair
(41_matmul_int.md R183, R190 to R193, decisions D6, D9). -/
def Obligations.MmaqaHalfCompletes : Prop :=
  IntMulPairCompletes .mmaqaH (fun _ => true) (fun _ => true) ∧
  IntMulPairCompletes .mmaqauH (fun _ => false) (fun _ => false) ∧
  IntMulPairCompletes .mmaqausH (fun o => o == .bFirst) (fun o => o == .aFirst) ∧
  IntMulPairCompletes .mmaqasuH (fun o => o == .aFirst) (fun o => o == .bFirst)

/-! ### Float matrix multiplication -/

/-- `fmmacc.s` and `fwmmacc.h` complete: every active element is the dot product of its row and column
with the accumulator, and the flags of all of them are accrued (40_matmul_float.md R158, R160, R162). -/
def Obligations.FloatSingleCompletes : Prop :=
  ∀ (s : State) (md ms2 ms1 : MIdx), s.ready → s.floatReady → md ≠ ms1 → md ≠ ms2 →
    let runs := fun i (dot : Nat → Nat → Word × BitVec 5) =>
      ∃ t, exec i s = .next t ∧ Rewrites s t [md] ∧ SatKept s t ∧ t.mstatus.fs = 3#2 ∧
        (t.Holds 32 md s.sM s.sN fun i j => (dot i j).1.setWidth 32) ∧
        ∀ k, t.fflags.getLsbD k = true ↔
          s.fflags.getLsbD k = true ∨ ∃ i j, i < s.sM ∧ j < s.sN ∧ (dot i j).2.getLsbD k = true
    (s.has 4 → s.validMM 32 s.cfg.rows = true →
      runs (.fmmaccS md ms2 ms1) fun i j =>
        fdot .fmmaccS ((s.el 32 md i j).setWidth 64)
          ((List.range (s.sK / 4)).map fun k => (s.el 32 ms1 i k).setWidth 64)
          ((List.range (s.sK / 4)).map fun k => (s.el 32 ms2 j k).setWidth 64)
          s.frm (s.cfg.hasBf16 && s.bf16)) ∧
    (s.has 8 → s.validMM 16 s.cfg.rows = true →
      runs (.fwmmaccH md ms2 ms1) fun i j =>
        fdot .fwmmaccH ((s.el 32 md i j).setWidth 64)
          ((List.range (s.sK / 2)).map fun k => (s.el 16 ms1 i k).setWidth 64)
          ((List.range (s.sK / 2)).map fun k => (s.el 16 ms2 j k).setWidth 64)
          s.frm (s.cfg.hasBf16 && s.bf16))

/-- `fmmacc.h` completes, with operand `B` in a register pair row after row and up to `2*ROWS` columns of
the result (40_matmul_float.md R152, R159, decision D7). -/
def Obligations.FloatHalfCompletes : Prop :=
  ∀ (s : State) (md ms2 ms1 : MIdx), s.ready → s.floatReady → s.has 3 → ms2.toNat % 2 = 0 →
    md ≠ ms1 → md ≠ ms2 → md ≠ ms2 + 1#3 → s.validMM 16 (2 * s.cfg.rows) = true →
    let dot := fun i j =>
      fdot .fmmaccH ((s.el 16 md i j).setWidth 64)
        ((List.range (s.sK / 2)).map fun k => (s.el 16 ms1 i k).setWidth 64)
        ((List.range (s.sK / 2)).map fun k =>
          (if j < s.cfg.rows then s.el 16 ms2 j k
            else s.el 16 (ms2 + 1#3) (j - s.cfg.rows) k).setWidth 64)
        s.frm (s.cfg.hasBf16 && s.bf16)
    ∃ t, exec (.fmmaccH md ms2 ms1) s = .next t ∧ Rewrites s t [md] ∧ SatKept s t ∧
      t.mstatus.fs = 3#2 ∧ (t.Holds 16 md s.sM s.sN fun i j => (dot i j).1.setWidth 16) ∧
      ∀ k, t.fflags.getLsbD k = true ↔
        s.fflags.getLsbD k = true ∨ ∃ i j, i < s.sM ∧ j < s.sN ∧ (dot i j).2.getLsbD k = true

/-- `fmmacc.d` and `fwmmacc.s` complete, with their accumulator split by column over a register pair
(40_matmul_float.md R152, R161, R163, decision D6). -/
def Obligations.FloatPairCompletes : Prop :=
  ∀ (s : State) (md ms2 ms1 : MIdx), s.ready → s.floatReady → md.toNat % 2 = 0 → md ≠ ms1 →
    md ≠ ms2 → md + 1#3 ≠ ms1 → md + 1#3 ≠ ms2 →
    let runs := fun i (dot : Nat → Nat → Word × BitVec 5) =>
      ∃ t, exec i s = .next t ∧ Rewrites s t [md, md + 1#3] ∧ SatKept s t ∧ t.mstatus.fs = 3#2 ∧
        (t.HoldsPair md s.sM s.sN fun i j => (dot i j).1) ∧
        ∀ k, t.fflags.getLsbD k = true ↔
          s.fflags.getLsbD k = true ∨ ∃ i j, i < s.sM ∧ j < s.sN ∧ (dot i j).2.getLsbD k = true
    (s.has 5 → s.validMM 64 s.cfg.rows = true →
      runs (.fmmaccD md ms2 ms1) fun i j =>
        fdot .fmmaccD (s.accGet .pair 64 md i j)
          ((List.range (s.sK / 8)).map fun k => s.el 64 ms1 i k)
          ((List.range (s.sK / 8)).map fun k => s.el 64 ms2 j k)
          s.frm (s.cfg.hasBf16 && s.bf16)) ∧
    (s.has 9 → s.validMM 32 s.cfg.rows = true →
      runs (.fwmmaccS md ms2 ms1) fun i j =>
        fdot .fwmmaccS (s.accGet .pair 64 md i j)
          ((List.range (s.sK / 4)).map fun k => (s.el 32 ms1 i k).setWidth 64)
          ((List.range (s.sK / 4)).map fun k => (s.el 32 ms2 j k).setWidth 64)
          s.frm (s.cfg.hasBf16 && s.bf16))

/-- The dot product meets P1, P2, P3 and P5, for every choice of what P4 leaves open: a NaN operand, an
infinity times zero or infinities of both signs give the canonical NaN, the latter two with NV; else a
term that is infinite gives that infinity with no flag; DZ is never raised (40_matmul_float.md R155;
the flags left open are free values, log 13; P4 is the statement FiniteDot). -/
def Obligations.DotProperties : Prop :=
  ∀ (op : FloatOp) (c : Word) (a b : List Word) (rm : BitVec 3) (bf : Bool),
    a.length = b.length →
    let src := (floatFormats op bf).1
    let acc := (floatFormats op bf).2
    let val := fun v : Word => src.unpack v.toNat
    let terms := acc.unpack c.toNat :: (a.zip b).map fun p => (val p.1).mul (val p.2)
    let r := fdot op c a b rm bf
    let hasNan := acc.unpack c.toNat = .nan ∨ (∃ v ∈ a, val v = .nan) ∨ ∃ v ∈ b, val v = .nan
    let invalid := (∃ p ∈ a.zip b, val p.1 ≠ .nan ∧ val p.2 ≠ .nan ∧ (val p.1).mul (val p.2) = .nan) ∨
      (.inf false ∈ terms ∧ .inf true ∈ terms)
    (hasNan ∨ invalid → r.1.toNat = acc.nanBits) ∧
    (invalid → r.2.getLsbD 4 = true) ∧
    (¬hasNan → ¬invalid → .inf false ∈ terms → r.1.toNat = acc.infBits ∧ r.2 = 0) ∧
    (¬hasNan → ¬invalid → .inf true ∈ terms →
      r.1.toNat = acc.signBits true + acc.infBits ∧ r.2 = 0) ∧
    r.2.getLsbD 3 = false

/-- The dot product of finite terms, whatever evaluation P4 leaves to the implementation. The dot product of no
elements is the accumulator, with no flag, or the canonical NaN (R158). Terms that are multiples of one power of
two and together at most `fb + 1` bits wide give their exact sum rounded once, and terms of that kind whose sum is
zero give a zero with no flag. Terms of one sign give a result of that sign. One term that is not zero and reaches
the power of two after the largest finite number overflows. NV and DZ are not raised (40_matmul_float.md R155 P4,
P5). What bounds the evaluation, and how the signs of zeros stay free, is logs 12 and 13. -/
def Obligations.FiniteDot : Prop :=
  ∀ (op : FloatOp) (c : Word) (a b : List Word) (rm : BitVec 3) (bf : Bool),
    a.length = b.length →
    let src := (floatFormats op bf).1
    let acc := (floatFormats op bf).2
    let terms := acc.unpack c.toNat ::
      (a.zip b).map fun p => (src.unpack p.1.toNat).mul (src.unpack p.2.toNat)
    let r := fdot op c a b rm bf
    (a = [] → c.toNat < 2 ^ (1 + acc.eb + acc.fb) →
      (acc.unpack c.toNat = .nan → r.1.toNat = acc.nanBits) ∧
      (acc.unpack c.toNat ≠ .nan → r = (c, 0))) ∧
    ((∀ t ∈ terms, ∃ neg mant exp, t = .fin neg mant exp) →
      (∀ (e k : Int), (∀ t ∈ terms, ∃ n : Int, t.number = n * (2 : ℚ) ^ e) →
        (terms.map fun t => |t.number|).sum ≤ (2 : ℚ) ^ (e + acc.fb + 1) →
        (terms.map fun t => t.number).sum = k * (2 : ℚ) ^ e →
        (k ≠ 0 → (r.1.toNat, r.2) = acc.round rm (decide (k < 0)) k.natAbs e false) ∧
        (k = 0 → (r.1.toNat = 0 ∨ r.1.toNat = acc.signBits true) ∧ r.2 = 0)) ∧
      ((∀ t ∈ terms, 0 ≤ t.number) → (∃ t ∈ terms, t.number ≠ 0) →
        r.1.toNat < acc.signBits true) ∧
      ((∀ t ∈ terms, t.number ≤ 0) → (∃ t ∈ terms, t.number ≠ 0) →
        acc.signBits true ≤ r.1.toNat) ∧
      (∀ before t after, terms = before ++ t :: after → (∀ u ∈ before ++ after, u.number = 0) →
        (2 : ℚ) ^ (acc.bias + 1) ≤ |t.number| →
        let neg := decide (t.number < 0)
        r.1.toNat = acc.signBits neg +
            (if overflowsToInf rm neg then acc.infBits else acc.infBits - 1) ∧
          r.2 = 0b00101#5) ∧
      r.2.getLsbD 4 = false ∧ r.2.getLsbD 3 = false)

/-- The final rounding of a dot product, of a number that is not zero, in the five modes: toward zero, away from
zero, to the nearest with ties to even or to the larger magnitude; OF exactly where the rounded number is past the
largest finite one, which in the modes toward zero gives that number; NX exactly where the result is not the
number; UF with NX alone, for numbers below the normal ones: always where they stay there at the precision of the
format, never from the least normal number on (40_matmul_float.md R155 P4, 10_state.md R55; tininess after
rounding is decision D12). -/
def Obligations.FinalRounding : Prop :=
  ∀ (op : FloatOp) (bf : Bool) (rm : BitVec 3) (neg : Bool) (mant : Nat) (exp : Int),
    rm.toNat < 5 → 0 < mant →
    let f := (floatFormats op bf).2
    let x : ℚ := mant * (2 : ℚ) ^ exp
    let r := f.round rm neg mant exp false
    let overflow := r.2.getLsbD 2 = true
    let inexact := r.2.getLsbD 0 = true
    let underflow := r.2.getLsbD 1 = true
    let down := rm = 1#3 ∨ (rm = 2#3 ∧ neg = false) ∨ (rm = 3#3 ∧ neg = true)
    let up := (rm = 2#3 ∧ neg = true) ∨ (rm = 3#3 ∧ neg = false)
    ∃ k, k ≤ f.infBits ∧ r.1 = f.signBits neg + k ∧
      (down → k < f.infBits ∧ f.magnitude k ≤ x ∧
        (x < f.magnitude (k + 1) ∨ k + 1 = f.infBits)) ∧
      (up → (x ≤ f.magnitude k ∨ k = f.infBits) ∧ (0 < k → f.magnitude (k - 1) < x)) ∧
      (rm = 0#3 ∨ rm = 4#3 → ∀ j ≤ f.infBits, |x - f.magnitude k| ≤ |x - f.magnitude j| ∧
        (|x - f.magnitude k| = |x - f.magnitude j| → j ≠ k →
          (rm = 0#3 → k % 2 = 0) ∧ (rm = 4#3 → j < k))) ∧
      (overflow ↔ k = f.infBits ∨ f.magnitude f.infBits ≤ x) ∧
      (inexact ↔ x ≠ f.magnitude k ∨ overflow) ∧
      (underflow → inexact ∧ x < (2 : ℚ) ^ f.emin) ∧
      (inexact → x ≤ (2 : ℚ) ^ f.emin - (2 : ℚ) ^ (f.emin - f.fb - 1) → underflow) ∧
      r.2.getLsbD 4 = false ∧ r.2.getLsbD 3 = false

/-! ### Loads and stores -/

/-- The normal and stream loads complete when their accesses reach memory (42_load_store.md R212, R214). -/
def Obligations.LoadsComplete : Prop :=
  ∀ (s : State) (md : MIdx) (rs2 rs1 : XIdx), s.mstatus.ms ≠ 0#2 →
    ∀ p ∈ shapedLoads md rs2 rs1,
      s.validPW (8 * p.2) = true → s.startsIn s.sM →
      s.reachable false (s.shaped p.2 rs1 rs2) →
      LoadCompletes p.1 s md 1 (s.shaped p.2 rs1 rs2)

/-- The whole-register loads complete when their accesses reach memory; the matrix size is not read
(42_load_store.md R215). -/
def Obligations.WholeLoadsComplete : Prop :=
  ∀ (s : State) (md : MIdx) (rs1 : XIdx), s.mstatus.ms ≠ 0#2 →
    ∀ p ∈ wholeLoads md rs1,
      md.toNat % p.2.1 = 0 → s.startsIn (p.2.1 * s.cfg.rows) →
      s.reachable false (s.whole p.2.1 p.2.2 rs1) →
      LoadCompletes p.1 s md p.2.1 (s.whole p.2.1 p.2.2 rs1)

/-- The normal and stream stores complete when their accesses reach memory
(42_load_store.md R213, R214). -/
def Obligations.StoresComplete : Prop :=
  ∀ (s : State) (ms3 : MIdx) (rs2 rs1 : XIdx), s.mem.wf = true → s.mstatus.ms ≠ 0#2 →
    ∀ p ∈ shapedStores ms3 rs2 rs1,
      s.validPW (8 * p.2) = true → s.startsIn s.sM →
      s.reachable true (s.shaped p.2 rs1 rs2) →
      StoreCompletes p.1 s ms3 (s.shaped p.2 rs1 rs2)

/-- The whole-register stores complete when their accesses reach memory; the matrix size is not read
(42_load_store.md R215). -/
def Obligations.WholeStoresComplete : Prop :=
  ∀ (s : State) (ms3 : MIdx) (rs1 : XIdx), s.mem.wf = true → s.mstatus.ms ≠ 0#2 →
    ∀ p ∈ wholeStores ms3 rs1,
      ms3.toNat % p.2.1 = 0 → s.startsIn (p.2.1 * s.cfg.rows) →
      s.reachable true (s.whole p.2.1 p.2.2 rs1) →
      StoreCompletes p.1 s ms3 (s.whole p.2.1 p.2.2 rs1)

/-- A trapping load, any of the 24: `xmrstart` holds the row, `MS` is Dirty, the trap is taken at the
instruction with one of the reports of that row, the rows before it hold their final values, and no
memory, integer register or other matrix register changes (42_load_store.md R216). -/
def Obligations.LoadTraps : Prop :=
  ∀ (s : State) (md : MIdx) (rs2 rs1 : XIdx) (row : Nat) (reports : List (Exc × Nat)),
    s.mstatus.ms ≠ 0#2 →
    let traps := fun (i : Instr) (n : Nat) (t : Transfer) =>
      s.trouble false t = some (.faults row reports) →
      ∃ u r, exec i s = .next u ∧ r ∈ reports ∧
        TrapTaken s u r.1 (BitVec.ofNat 64 r.2) ∧ u.xmrstart.toNat = row ∧ u.mstatus.ms = 3#2 ∧
        u.x = s.x ∧ u.mem = s.mem ∧ SizesKept s u ∧ RegsKept s u (regGroup md n) ∧
        ∀ k q b, k < n → q < s.cfg.rows → k * s.cfg.rows + q < row → b < s.cfg.mlenb →
          u.el 8 (md + BitVec.ofNat 3 k) q b =
            let g := k * s.cfg.rows + q
            if g < s.xmrstart.toNat then s.el 8 (md + BitVec.ofNat 3 k) q b
            else if b < t.rowBytes then s.byteAt (t.addr g b) else 0
    (∀ p ∈ shapedLoads md rs2 rs1, s.validPW (8 * p.2) = true → s.startsIn s.sM →
      traps p.1 1 (s.shaped p.2 rs1 rs2)) ∧
    ∀ p ∈ wholeLoads md rs1, md.toNat % p.2.1 = 0 → s.startsIn (p.2.1 * s.cfg.rows) →
      traps p.1 p.2.1 (s.whole p.2.1 p.2.2 rs1)

/-- A trapping store, any of the 24: `xmrstart` holds the row, `MS` is Dirty, the trap is taken at the
instruction with one of the reports of that row, no matrix or integer register changes, a byte that no row from
`xmrstart` on covers is as before, and a byte covered by a row before the trapping one, and by no other
with another value, holds what was stored (42_load_store.md R216). -/
def Obligations.StoreTraps : Prop :=
  ∀ (s : State) (ms3 : MIdx) (rs2 rs1 : XIdx) (row : Nat) (reports : List (Exc × Nat)),
    s.mem.wf = true → s.mstatus.ms ≠ 0#2 →
    let traps := fun (i : Instr) (t : Transfer) =>
      let value := fun q c => s.el 8 (ms3 + BitVec.ofNat 3 (q / s.cfg.rows)) (q % s.cfg.rows) c
      s.trouble true t = some (.faults row reports) →
      ∃ u r, exec i s = .next u ∧ r ∈ reports ∧
        TrapTaken s u r.1 (BitVec.ofNat 64 r.2) ∧ u.xmrstart.toNat = row ∧ u.mstatus.ms = 3#2 ∧
        u.x = s.x ∧ u.m = s.m ∧ SizesKept s u ∧
        (∀ a, (∀ q c, s.xmrstart.toNat ≤ q → q < t.rows → c < t.rowBytes → t.addr q c ≠ a) →
          u.byteAt a = s.byteAt a) ∧
        ∀ q c, s.xmrstart.toNat ≤ q → q < row → c < t.rowBytes →
          (∀ q' c', s.xmrstart.toNat ≤ q' → q' < t.rows → c' < t.rowBytes →
            t.addr q' c' = t.addr q c → value q' c' = value q c) →
          u.byteAt (t.addr q c) = value q c
    (∀ p ∈ shapedStores ms3 rs2 rs1, s.validPW (8 * p.2) = true → s.startsIn s.sM →
      traps p.1 (s.shaped p.2 rs1 rs2)) ∧
    ∀ p ∈ wholeStores ms3 rs1, ms3.toNat % p.2.1 = 0 → s.startsIn (p.2.1 * s.cfg.rows) →
      traps p.1 (s.whole p.2.1 p.2.2 rs1)

/-- The row that a trapping transfer reports is the lowest one at or above `xmrstart` with a faulting
element, and every report is an exception of an element of that row (60_exceptions.md R427). -/
def Obligations.LowestFaultingRow : Prop :=
  ∀ (s : State) (store : Bool) (t : Transfer) (row : Nat) (reports : List (Exc × Nat)),
    s.trouble store t = some (.faults row reports) →
    s.xmrstart.toNat ≤ row ∧ row < t.rows ∧ reports ≠ [] ∧
    (∀ r ∈ reports, ∃ k < t.rowBytes / t.esize, r ∈ s.elemFaults store t row k) ∧
    ∀ q k, s.xmrstart.toNat ≤ q → q < row → k < t.rowBytes / t.esize →
      s.elemFaults store t q k = [] ∧ s.elemReserved store t q k = none

/-- A load or store that resumes at row `n`, with the rows before it done as its first attempt did them, ends as
an untrapped one does. For each of the 24 loads the whole state is the same. For each of the 24 stores, where no
byte is covered twice with different values and memory elsewhere is as before, every byte of memory reads the same
and so does every register (42_load_store.md R216). -/
def Obligations.TransferResumes : Prop :=
  ∀ (s : State) (r : MIdx) (rs2 rs1 : XIdx) (n : Nat), s.mstatus.ms ≠ 0#2 → s.xmrstart = 0 →
    let loads := fun (i : Instr) (count : Nat) (t : Transfer) =>
      ∀ v : List MReg, v.length = count → n < t.rows → s.reachable false t →
        (∀ q c, q < n → c < s.cfg.mlenb →
          elem 8 ((v.getD (q / s.cfg.rows) []).getD (q % s.cfg.rows) 0) c =
            if c < t.rowBytes then s.byteAt (t.addr q c) else 0) →
        exec i ({ s.setGroup r v with xmrstart := BitVec.ofNat 64 n } : State) = exec i s
    let stores := fun (i : Instr) (t : Transfer) =>
      let value := fun q c => s.el 8 (r + BitVec.ofNat 3 (q / s.cfg.rows)) (q % s.cfg.rows) c
      ∀ mem : Memory, mem.wf = true → s.mem.wf = true → n < t.rows → s.reachable true t →
        (∀ q c q' c', q < t.rows → c < t.rowBytes → q' < t.rows → c' < t.rowBytes →
          t.addr q c = t.addr q' c' → value q c = value q' c') →
        (∀ q c, q < n → c < t.rowBytes → mem.read (t.addr q c) = value q c) →
        (∀ a, (∀ q c, q < t.rows → c < t.rowBytes → t.addr q c ≠ a) →
          mem.read a = s.byteAt a) →
        ∃ u w, exec i ({ s with mem := mem, xmrstart := BitVec.ofNat 64 n } : State) = .next u ∧
          exec i s = .next w ∧ Finished s u ∧ HostKept s u ∧ u.m = w.m ∧ SizesKept s u ∧
          ∀ a, u.byteAt a = w.byteAt a
    (∀ p ∈ shapedLoads r rs2 rs1, s.validPW (8 * p.2) = true →
      loads p.1 1 (s.shaped p.2 rs1 rs2)) ∧
    (∀ p ∈ wholeLoads r rs1, r.toNat % p.2.1 = 0 →
      loads p.1 p.2.1 (s.whole p.2.1 p.2.2 rs1)) ∧
    (∀ p ∈ shapedStores r rs2 rs1, s.validPW (8 * p.2) = true →
      stores p.1 (s.shaped p.2 rs1 rs2)) ∧
    ∀ p ∈ wholeStores r rs1, r.toNat % p.2.1 = 0 → stores p.1 (s.whole p.2.1 p.2.2 rs1)

/-- A misaligned first element of any of the 48 loads and stores follows `MISALIGNED_POLICY`. Under `refuse` the
instruction is RESERVED. Under `trap` it raises the misaligned exception with the address of an element of row 0,
or with a byte address of one that straddles a page, whatever the address map says of the bytes: that it comes
before an access or page fault is the model's choice, log 30, as is the page size. Under `split` the instruction
completes when the bytes of its elements reach memory (20_memory.md R84, 60_exceptions.md R427). -/
def Obligations.MisalignedElement : Prop :=
  ∀ (s : State) (r : MIdx) (rs2 rs1 : XIdx), s.mstatus.ms ≠ 0#2 → s.xmrstart = 0 →
    let stops := fun (i : Instr) (e : Exc) (t : Transfer) =>
      0 < t.rows → t.esize ≤ t.rowBytes → t.addr 0 0 % t.esize ≠ 0 →
      (s.cfg.misalignedPolicy = .refuse → s.cfg.reservedPolicy = .refuse →
        exec i s = .refused (.reserved .misaligned)) ∧
      (s.cfg.misalignedPolicy = .trap →
        ∃ u k b, exec i s = .next u ∧ u.xmrstart = 0 ∧ k < t.rowBytes / t.esize ∧ b < t.esize ∧
          TrapTaken s u e (BitVec.ofNat 64 (t.addr 0 (k * t.esize + b))) ∧
          (b = 0 ∨ ∃ c < t.esize,
            t.addr 0 (k * t.esize + c) / 4096 ≠ t.addr 0 (k * t.esize) / 4096))
    (∀ p ∈ shapedLoads r rs2 rs1, s.validPW (8 * p.2) = true →
      let t := s.shaped p.2 rs1 rs2
      stops p.1 .loadMisaligned t ∧
        (s.cfg.misalignedPolicy = .split → s.reachable false t → LoadCompletes p.1 s r 1 t)) ∧
    (∀ p ∈ wholeLoads r rs1, r.toNat % p.2.1 = 0 →
      let t := s.whole p.2.1 p.2.2 rs1
      stops p.1 .loadMisaligned t ∧
        (s.cfg.misalignedPolicy = .split → s.reachable false t → LoadCompletes p.1 s r p.2.1 t)) ∧
    (∀ p ∈ shapedStores r rs2 rs1, s.validPW (8 * p.2) = true →
      let t := s.shaped p.2 rs1 rs2
      stops p.1 .storeMisaligned t ∧
        (s.cfg.misalignedPolicy = .split → s.mem.wf = true → s.reachable true t →
          StoreCompletes p.1 s r t)) ∧
    ∀ p ∈ wholeStores r rs1, r.toNat % p.2.1 = 0 →
      let t := s.whole p.2.1 p.2.2 rs1
      stops p.1 .storeMisaligned t ∧
        (s.cfg.misalignedPolicy = .split → s.mem.wf = true → s.reachable true t →
          StoreCompletes p.1 s r t)

/-! ### CSRs -/

/-- What the CSRs read as: the matrix CSRs (10_state.md R38 to R50), `fcsr` and its parts (10_state.md R55, R57),
the trap registers (60_exceptions.md R432), `instret` and on RV32 its upper half (60_exceptions.md R439). The layout
of `xmcsr` is decision D15, and that the upper bits of `xmxrm`, `xmxsat`, `xmisa` and `xmsize` read as zero is
decision D16. That all other bits of `fcsr` read as zero is the model's, log 21, as are the halves of `instret`, log
34. -/
def Obligations.CsrValues : Prop :=
  ∀ s : State, s.Inv →
    s.csrRead .xmrstart = s.xmrstart ∧
    (s.csrRead .xmcsr).toNat = s.xmxsat.toNat + 2 * s.xmxrm.toNat ∧
    (s.csrRead .xmxrm).toNat = s.xmxrm.toNat ∧ (s.csrRead .xmxsat).toNat = s.xmxsat.toNat ∧
    (s.csrRead .xmsize).toNat = s.sizeM.toNat + 256 * s.sizeN.toNat + 65536 * s.sizeK.toNat ∧
    (s.csrRead .xmlenb).toNat = s.cfg.mlen.bits / 8 ∧
    (s.csrRead .xmregsize).toNat = s.cfg.mlen.bits / 32 * (s.cfg.mlen.bits / 8) ∧
    (s.csrRead .xmisa).toNat = s.cfg.xmisa.toNat ∧
    (s.csrRead .fflags).toNat = s.fflags.toNat ∧ (s.csrRead .frm).toNat = s.frm.toNat ∧
    (8 ≤ s.cfg.bf16Bit → s.cfg.bf16Bit < s.cfg.xlen.bits →
      (s.csrRead .fcsr).toNat = s.fflags.toNat + 32 * s.frm.toNat +
        if s.cfg.hasBf16 = true ∧ s.bf16 = true then 2 ^ s.cfg.bf16Bit else 0) ∧
    s.csrRead .mtvec = s.mtvec ∧ s.csrRead .medeleg = s.medeleg ∧ s.csrRead .mideleg = s.mideleg ∧
    s.csrRead .mepc = s.mepc ∧ s.csrRead .mcause = s.mcause ∧ s.csrRead .mtval = s.mtval ∧
    s.csrRead .stvec = s.stvec ∧ s.csrRead .sepc = s.sepc ∧ s.csrRead .scause = s.scause ∧
    s.csrRead .stval = s.stval ∧
    (s.cfg.xlen = .x64 → s.csrRead .instret = s.instret) ∧
    (s.cfg.xlen = .x32 →
      (s.csrRead .instret).toNat + 2 ^ 32 * (s.csrRead .instreth).toNat = s.instret.toNat)

/-- A CSR instruction, of any of the six forms, that reads a matrix CSR with `MS` on gives its value and changes
nothing else; one that writes `xmrstart`, `xmxrm` or `xmcsr` sets the register, makes `MS` Dirty and does not clear
`xmrstart`. The set and clear forms write unless their source field is zero (47_host_interface.md R404, R405; the
layout of `xmcsr` is decision D15, that a write makes `MS` Dirty is decision D19). From every level and whatever
`MS` is, a read of `instret` gives the instructions retired before it, and one of `cycle` or `time` completes
(60_exceptions.md R439; who may read them is log 34, and so is that the value of the latter two is free). -/
def Obligations.MatrixCsrAccess : Prop :=
  ∀ (s : State) (word : BitVec 32) (op : CsrOp) (imm : Bool) (rd src : XIdx) (addr : BitVec 12),
    (op ≠ .write → src = 0 →
      (∀ r ∈ [Csr.instret, .instreth], csrAt s.cfg addr = some r →
        execHost (.csr op imm rd addr src) word s = .next (s.setX rd (s.csrRead r)).advance) ∧
      ∀ r ∈ [Csr.cycle, .time, .cycleh, .timeh], csrAt s.cfg addr = some r →
        ∃ v, execHost (.csr op imm rd addr src) word s =
          .next (({ s with draws := s.draws + 1 } : State).setX rd v).advance) ∧
    (s.mstatus.ms ≠ 0#2 →
      let made := fun r => csrMade op (s.csrRead r) (s.csrArg imm src)
      let gives := fun r (t : State) => execHost (.csr op imm rd addr src) word s =
        .next (t.setX rd (s.csrRead r)).advance
      (op ≠ .write → src = 0 → ∀ r, r.isMatrix = true → csrAt s.cfg addr = some r → gives r s) ∧
      (op = .write ∨ src ≠ 0 →
        (csrAt s.cfg addr = some .xmrstart →
          gives .xmrstart ({ s with xmrstart := wrapX s.cfg.xlen (made .xmrstart) } : State).dirtyMS) ∧
        (csrAt s.cfg addr = some .xmxrm → (made .xmxrm).toNat < 4 →
          gives .xmxrm ({ s with xmxrm := (made .xmxrm).setWidth 2 } : State).dirtyMS) ∧
        (csrAt s.cfg addr = some .xmcsr → (made .xmcsr).toNat < 8 →
          gives .xmcsr
            ({ s with
                xmxsat := (made .xmcsr).getLsbD 0
                xmxrm := (made .xmcsr).extractLsb' 1 2 } : State).dirtyMS)))

/-- A CSR instruction, of any of the six forms, raises IllegalInstruction when it writes a read-only matrix CSR or a
counter, names an address with no CSR, or has too low a privilege for `mstatus`, `sstatus` or a trap register;
non-zero reserved bits of `xmxrm` and `xmcsr` are RESERVED (60_exceptions.md R428, R438, 47_host_interface.md R404,
10_state.md R40). That bits 3 up of `xmcsr` are reserved is decision D15. The model's own: the levels that the trap
registers need, and that `fcsr` and its parts are illegal with `FS` Off, log 21; that the counters are read-only,
log 34. -/
def Obligations.CsrRefusals : Prop :=
  ∀ (s : State) (word : BitVec 32) (op : CsrOp) (imm : Bool) (rd src : XIdx) (addr : BitVec 12),
    let instr := HostInstr.csr op imm rd addr src
    let illegal := execHost instr word s = .next (s.illegal word)
    let made := fun r => csrMade op (s.csrRead r) (s.csrArg imm src)
    let writes := op = .write ∨ src ≠ 0
    (writes → ∀ r ∈ [Csr.xmxsat, .xmsize, .xmregsize, .xmlenb, .xmisa, .cycle, .time, .instret,
        .cycleh, .timeh, .instreth],
      csrAt s.cfg addr = some r → illegal) ∧
    (csrAt s.cfg addr = none → addr ∉ s.cfg.hostCsrs → illegal) ∧
    (s.priv ≠ .m → ∀ r ∈ [Csr.mstatus, .mtvec, .medeleg, .mideleg, .mepc, .mcause, .mtval],
      csrAt s.cfg addr = some r → illegal) ∧
    (s.priv = .u → ∀ r ∈ [Csr.sstatus, .stvec, .sepc, .scause, .stval],
      csrAt s.cfg addr = some r → illegal) ∧
    (s.mstatus.fs = 0#2 → ∀ r ∈ [Csr.fflags, .frm, .fcsr], csrAt s.cfg addr = some r → illegal) ∧
    (writes → s.mstatus.ms ≠ 0#2 → s.cfg.reservedPolicy = .refuse →
      (csrAt s.cfg addr = some .xmxrm → 4 ≤ (made .xmxrm).toNat →
        execHost instr word s = .refused (.reserved .csrBits)) ∧
      (csrAt s.cfg addr = some .xmcsr → 8 ≤ (made .xmcsr).toNat →
        execHost instr word s = .refused (.reserved .csrBits)))

/-- What a CSR instruction, of any of the six forms, that writes `mstatus`, `sstatus`, `fcsr` or a part of it, or a
trap register does. For `MS_POS` from 18 to `XLEN - 3`: `mstatus` in machine mode and `sstatus` above user mode set
`MS` and `FS` from their fields, and the summary bit then reads as one exactly if either is Dirty (10_state.md R51,
47_host_interface.md R406); the place of the summary bit and of the other fields, and that no further field sets it,
is the model's, log 14. `sstatus` leaves the machine fields alone. With `FS` on, `fcsr`, `frm` and `fflags` set
their fields, `FCSR_BF16_BIT` from 8 on included (10_state.md R55, R57); that `FS` becomes Dirty is the model's, log
21. A trap register reads back as written, but for the bits that log 21 says it cannot hold; log 21 says at which
levels. Each gives `x[rd]` the old value. -/
def Obligations.StatusWrite : Prop :=
  ∀ (s : State) (word : BitVec 32) (op : CsrOp) (imm : Bool) (rd src : XIdx) (addr : BitVec 12),
    op = .write ∨ src ≠ 0 →
    let sets := fun (r : Csr) (holds : Word → State → Prop) => csrAt s.cfg addr = some r →
      ∃ t, execHost (.csr op imm rd addr src) word s = .next t ∧ t.pc = s.nextPc ∧
        t.instret = s.instret + 1 ∧ t.m = s.m ∧ t.mem = s.mem ∧ t.xmrstart = s.xmrstart ∧ t.priv = s.priv ∧
        (rd ≠ 0 → t.xval rd = s.csrRead r) ∧ (∀ k, k ≠ rd → t.xval k = s.xval k) ∧
        holds (csrMade op (s.csrRead r) (s.csrArg imm src)) t
    let shown := fun (v : Word) (t : State) =>
      t.mstatus.ms = v.extractLsb' s.cfg.msPos 2 ∧ t.mstatus.fs = v.extractLsb' 13 2 ∧
        t.mstatus.sie = v.getLsbD 1 ∧ t.mstatus.spie = v.getLsbD 5 ∧ t.mstatus.spp = v.getLsbD 8 ∧
        ∀ r ∈ [Csr.mstatus, .sstatus],
          (t.csrRead r).extractLsb' s.cfg.msPos 2 = t.mstatus.ms ∧
          (t.csrRead r).extractLsb' 13 2 = t.mstatus.fs ∧
          ((t.csrRead r).getLsbD (s.cfg.xlen.bits - 1) = true ↔
            t.mstatus.fs = 3#2 ∨ t.mstatus.ms = 3#2)
    let floats := fun (t : State) => t.mstatus.fs = 3#2 ∧ t.mstatus.ms = s.mstatus.ms
    (18 ≤ s.cfg.msPos → s.cfg.msPos + 2 < s.cfg.xlen.bits →
      (s.priv = .m → sets .mstatus fun v t => shown v t ∧
        t.mstatus.mie = v.getLsbD 3 ∧ t.mstatus.mpie = v.getLsbD 7 ∧ t.mstatus.mprv = v.getLsbD 17) ∧
      (s.priv ≠ .u → sets .sstatus fun v t => shown v t ∧
        t.mstatus.mie = s.mstatus.mie ∧ t.mstatus.mpie = s.mstatus.mpie ∧
        t.mstatus.mpp = s.mstatus.mpp ∧ t.mstatus.mprv = s.mstatus.mprv)) ∧
    (s.mstatus.fs ≠ 0#2 →
      (sets .fcsr fun v t => floats t ∧ t.fflags = v.extractLsb' 0 5 ∧ t.frm = v.extractLsb' 5 3 ∧
        (s.cfg.hasBf16 = true → 8 ≤ s.cfg.bf16Bit → s.cfg.bf16Bit < s.cfg.xlen.bits →
          t.bf16 = v.getLsbD s.cfg.bf16Bit)) ∧
      (sets .frm fun v t => floats t ∧ t.frm = v.extractLsb' 0 3 ∧ t.fflags = s.fflags ∧
        t.bf16 = s.bf16) ∧
      (sets .fflags fun v t => floats t ∧ t.fflags = v.extractLsb' 0 5 ∧ t.frm = s.frm ∧
        t.bf16 = s.bf16)) ∧
    (∀ r ∈ [Csr.mcause, .mtval, .medeleg, .mideleg], s.priv = .m →
      sets r fun v t => t.csrRead r = wrapX s.cfg.xlen v ∧ t.mstatus = s.mstatus) ∧
    (∀ r ∈ [Csr.scause, .stval], s.priv ≠ .u →
      sets r fun v t => t.csrRead r = wrapX s.cfg.xlen v ∧ t.mstatus = s.mstatus) ∧
    (s.priv = .m → sets .mtvec fun v t =>
      t.csrRead .mtvec = wrapX s.cfg.xlen v &&& ~~~2#64 ∧ t.mstatus = s.mstatus) ∧
    (s.priv ≠ .u → sets .stvec fun v t =>
      t.csrRead .stvec = wrapX s.cfg.xlen v &&& ~~~2#64 ∧ t.mstatus = s.mstatus) ∧
    let low : Word := if s.cfg.compressed then 1#64 else 3#64
    (s.priv = .m → sets .mepc fun v t =>
      t.csrRead .mepc = wrapX s.cfg.xlen v &&& ~~~low ∧ t.mstatus = s.mstatus) ∧
    (s.priv ≠ .u → sets .sepc fun v t =>
      t.csrRead .sepc = wrapX s.cfg.xlen v &&& ~~~low ∧ t.mstatus = s.mstatus)

/-! ### Host instructions and memory -/

/-- `addi`, `lui`, `bne`, the fences and the system instructions; `x0` reads zero and discards writes; after
`FENCE.I` a fetch sees memory as it is; each that raises nothing retires (47_host_interface.md R400, R408, R409,
20_memory.md R92, R94, 60_exceptions.md R439). The model's choices: that one that traps does not retire, log 34; how
a fetch before `FENCE.I` may see old bytes, log 11; that `FENCE` only advances `pc`, log 27; that a `bne` to a
misaligned address raises nothing itself, log 31; the codes and trap values of `ECALL` and `EBREAK`, and that `WFI`
and `SFENCE.VMA` only advance `pc`, log 32. -/
def Obligations.HostInstructions : Prop :=
  ∀ (s : State) (word : BitVec 32) (rd rs1 rs2 : XIdx) (imm : BitVec 12) (big : BitVec 20),
    let sets := fun i (v : Word) =>
      ∃ t, execHost i word s = .next t ∧ t.pc = s.nextPc ∧ t.instret = s.instret + 1 ∧ t.m = s.m ∧
        t.mem = s.mem ∧ t.xval 0 = 0 ∧ (rd ≠ 0 → t.xval rd = wrapX s.cfg.xlen v) ∧
        ∀ r, r ≠ rd → t.xval r = s.xval r
    let raises := fun i (code : Nat) (tval : Word) =>
      ∃ t e, execHost i word s = .next t ∧ e.code = code ∧ TrapTaken s t e tval ∧
        t.instret = s.instret ∧ t.m = s.m ∧ t.x = s.x ∧ t.mem = s.mem ∧ t.xmrstart = s.xmrstart ∧
        t.mstatus.ms = s.mstatus.ms
    sets (.addi rd rs1 imm) (s.xval rs1 + imm.signExtend 64) ∧
    sets (.lui rd big) (BitVec.signExtend 64 (big ++ 0#12)) ∧
    (s.xval rs1 ≠ s.xval rs2 →
      execHost (.bne rs1 rs2 imm) word s =
        .next { s with
          pc := wrapX s.cfg.xlen (s.pc + imm.signExtend 64 * 2), instret := s.instret + 1 }) ∧
    (s.xval rs1 = s.xval rs2 → execHost (.bne rs1 rs2 imm) word s = .next s.advance) ∧
    execHost .fence word s = .next s.advance ∧ execHost .wfi word s = .next s.advance ∧
    (s.priv ≠ .u → execHost (.sfenceVma rs1 rs2) word s = .next s.advance) ∧
    (s.priv = .u → execHost (.sfenceVma rs1 rs2) word s = .next (s.illegal word)) ∧
    raises .ecall (match s.priv with | .u => 8 | .s => 9 | .m => 11) 0 ∧
    (raises .ebreak 3 s.pc ∨ raises .ebreak 3 0) ∧
    ∃ t, execHost .fenceI word s = .next t ∧ t = ({ s with stale := [] } : State).advance ∧
      t.fetchCoherent = true ∧
      t.fetchWord = wordOfBytes (t.byteAt (t.fetchAddr 0)) (t.byteAt (t.fetchAddr 1))
        (t.byteAt (t.fetchAddr 2)) (t.byteAt (t.fetchAddr 3))
end

