-- ==== Sys2Proof/Laws/Bits.lean ====
section
/-! SUPPORT. Elements of packed rows, and rows of built registers. -/

namespace Sys2Proof.Machine

/-- Bit `k` of a packed row is bit `k % w` of element `k / w`. -/
theorem getLsbD_packRow {w : Nat} (hw : 0 < w) (l : List (BitVec w)) (k : Nat) (hk : k < 512) :
    (packRow l).getLsbD k = (l.getD (k / w) 0).getLsbD (k % w) := by
  induction l generalizing k with
  | nil => simp [packRow]
  | cons e l ih =>
    simp only [packRow, BitVec.getLsbD_or, BitVec.getLsbD_setWidth, BitVec.getLsbD_shiftLeft, hk,
      decide_true, Bool.true_and]
    by_cases h : k < w
    · simp [h, Nat.div_eq_of_lt h, Nat.mod_eq_of_lt h]
    · have hge : w ≤ k := by omega
      have hdiv : k / w = (k - w) / w + 1 := by
        rw [← Nat.add_div_right _ hw]; congr 1; omega
      have hmod : (k - w) % w = k % w := by rw [Nat.mod_eq_sub_mod hge]
      rw [ih (k - w) (by omega), hmod, hdiv, BitVec.getLsbD_of_ge e k hge]
      simp [h]

/-- Element `j` of a packed row is entry `j` of the list, and zero past its end. -/
theorem elem_packRow {w : Nat} (hw : 0 < w) (l : List (BitVec w)) (j : Nat)
    (hj : w * (j + 1) ≤ 512) : elem w (packRow l) j = l.getD j 0 := by
  apply BitVec.eq_of_getLsbD_eq
  intro i hi
  have hlt : w * j + i < 512 := by rw [Nat.mul_add] at hj; omega
  have h1 : (w * j + i) / w = j := by
    rw [Nat.mul_add_div hw, Nat.div_eq_of_lt hi, Nat.add_zero]
  have h2 : (w * j + i) % w = i := by rw [Nat.mul_add_mod, Nat.mod_eq_of_lt hi]
  simp [elem, getLsbD_packRow hw l _ hlt, h1, h2, hi]

/-- Truncation to `MLEN` keeps the bits below it and clears the others. -/
theorem getLsbD_truncRow (l : Mlen) (r : Row) (k : Nat) :
    (truncRow l r).getLsbD k = (decide (k < l.bits) && r.getLsbD k) := by
  cases l with
  | m512 =>
    by_cases h : k < 512
    · simp [truncRow, Mlen.bits, h]
    · simp [truncRow, Mlen.bits, h, BitVec.getLsbD_of_ge r k (by omega)]
  | _ =>
    simp only [truncRow, Mlen.bits, BitVec.getLsbD_setWidth]
    by_cases h : k < 512
    · simp only [h, decide_true, Bool.true_and]; rfl
    · simp [h, BitVec.getLsbD_of_ge r k (by omega)]

/-- Truncation does not touch an element inside the row. -/
theorem elem_truncRow (l : Mlen) (w : Nat) (r : Row) (j : Nat) (hj : w * (j + 1) ≤ l.bits) :
    elem w (truncRow l r) j = elem w r j := by
  apply BitVec.eq_of_getLsbD_eq
  intro i hi
  have : w * j + i < l.bits := by rw [Nat.mul_add] at hj; omega
  simp [elem, getLsbD_truncRow, hi, this]

@[simp] theorem truncRow_truncRow (l : Mlen) (r : Row) :
    truncRow l (truncRow l r) = truncRow l r := by
  apply BitVec.eq_of_getLsbD_eq
  intro i _
  simp [getLsbD_truncRow]

@[simp] theorem truncRow_zero (l : Mlen) : truncRow l 0 = 0 := by
  apply BitVec.eq_of_getLsbD_eq
  intro i _
  simp [getLsbD_truncRow]

/-- A truncated row is below `2^MLEN`. -/
theorem truncRow_lt (l : Mlen) (r : Row) : (truncRow l r).toNat < 2 ^ l.bits := by
  apply Nat.lt_pow_two_of_testBit
  intro i hi
  have := getLsbD_truncRow l r i
  rw [BitVec.getLsbD] at this
  simp [this]; omega

theorem Mlen.bits_le (l : Mlen) : l.bits ≤ 512 := by cases l <;> simp [Mlen.bits]

/-- Row `i` of a built register. -/
theorem getD_rowsOf (c : Config) (f : Nat → Row) {i : Nat} (hi : i < c.rows) :
    (rowsOf c f).getD i 0 = truncRow c.mlen (f i) := by
  simp [rowsOf, hi]

@[simp] theorem length_rowsOf (c : Config) (f : Nat → Row) : (rowsOf c f).length = c.rows := by
  simp [rowsOf]

/-- Element `(i, j)` of a tiled register. -/
theorem elem_tiled (c : Config) (nrows ncols : Nat) {w : Nat} (hw : 0 < w)
    (f : Nat → Nat → BitVec w) {i j : Nat} (hi : i < c.rows) (hj : w * (j + 1) ≤ c.mlen.bits) :
    elem w ((tiled c nrows ncols w f).getD i 0) j = if i < nrows ∧ j < ncols then f i j else 0 := by
  rw [tiled, getD_rowsOf c _ hi, elem_truncRow _ _ _ _ hj]
  by_cases h : i < nrows
  · have h512 := Nat.le_trans hj (Mlen.bits_le c.mlen)
    simp only [h, if_true, true_and, elem_packRow hw _ j h512]
    by_cases hc : j < ncols <;> simp [hc]
  · simp [h, elem]

@[simp] theorem wrapX_wrapX (l : Xlen) (w : Word) : wrapX l (wrapX l w) = wrapX l w := by
  cases l <;> simp [wrapX]

/-- A reduced word is below `2^XLEN`. -/
theorem wrapX_lt (l : Xlen) (w : Word) : (wrapX l w).toNat < 2 ^ l.bits := by
  cases l <;> simp only [wrapX, Xlen.bits]
  · have := (w.setWidth 32).isLt
    simp [BitVec.toNat_setWidth]
    omega
  · exact w.isLt

/-- A word below `2^XLEN` is its own reduction. -/
theorem wrapX_of_lt (l : Xlen) {w : Word} (h : w.toNat < 2 ^ l.bits) : wrapX l w = w := by
  cases l <;> simp only [wrapX, Xlen.bits] at *
  apply BitVec.eq_of_toNat_eq
  simp [BitVec.toNat_setWidth]
  omega

end Sys2Proof.Machine
end

