-- ==== Sys2Proof/Laws/Decode.lean ====
section
/-! SUPPORT. The fields of the words that the encoder builds. -/

namespace Sys2Proof

/-- A field below the seam of two joined vectors is a field of the lower one. -/
theorem field_append_low {n m : Nat} (x : BitVec n) (y : BitVec m) {lo len : Nat}
    (h : lo + len ≤ m) : (x ++ y).extractLsb' lo len = y.extractLsb' lo len :=
  BitVec.extractLsb'_append_eq_of_add_le h

/-- A field above the seam of two joined vectors is a field of the upper one. -/
theorem field_append_high {n m : Nat} (x : BitVec n) (y : BitVec m) {lo len : Nat} (h : m ≤ lo) :
    (x ++ y).extractLsb' lo len = x.extractLsb' (lo - m) len :=
  BitVec.extractLsb'_append_eq_of_le h

/-- The fields of a word in the arithmetic format (30_encoding.md R111). -/
theorem arithWord_fields (func : BitVec 4) (uop : BitVec 3) (b24 : BitVec 1)
    (ms2 ms1 r : BitVec 3) (size : BitVec 2) (md : MIdx) :
    let w := arithWord func uop b24 ms2 ms1 r size md
    w.extractLsb' 0 7 = majorOpcode ∧ w.extractLsb' 7 3 = md ∧ w.extractLsb' 10 2 = size ∧
    w.extractLsb' 12 3 = 0#3 ∧ w.extractLsb' 15 3 = r ∧ w.extractLsb' 18 3 = ms1 ∧
    w.extractLsb' 21 3 = ms2 ∧ w.extractLsb' 24 1 = b24 ∧ w.extractLsb' 25 3 = uop ∧
    w.extractLsb' 28 4 = func := by
  simp (disch := decide) only [arithWord, field_append_low, field_append_high]
  simp

/-- The fields of a word in the load/store format (30_encoding.md R112). -/
theorem memWord_fields (func : BitVec 4) (uop : BitVec 3) (rs2 rs1 : XIdx) (size : BitVec 2)
    (reg : MIdx) :
    let w := memWord func uop rs2 rs1 size reg
    w.extractLsb' 0 7 = majorOpcode ∧ w.extractLsb' 7 3 = reg ∧ w.extractLsb' 10 2 = size ∧
    w.extractLsb' 12 3 = 0#3 ∧ w.extractLsb' 15 5 = rs1 ∧ w.extractLsb' 20 5 = rs2 ∧
    w.extractLsb' 25 3 = uop ∧ w.extractLsb' 28 4 = func := by
  simp (disch := decide) only [memWord, field_append_low, field_append_high]
  simp

/-- The fields of a word in the immediate configuration format (30_encoding.md R113). -/
theorem cfgImmWord_fields (index : BitVec 3) (uimm7 : BitVec 7) :
    let w := cfgImmWord index uimm7
    w.extractLsb' 0 7 = majorOpcode ∧ w.extractLsb' 7 5 = 0#5 ∧ w.extractLsb' 12 3 = 0#3 ∧
    w.extractLsb' 15 5 = uimm7.extractLsb' 0 2 ++ 0#3 ∧ w.extractLsb' 20 5 = uimm7.extractLsb' 2 5 ∧
    w.extractLsb' 25 3 = 7#3 ∧ w.extractLsb' 28 3 = index ∧ w.extractLsb' 31 1 = 0#1 := by
  simp (disch := decide) only [cfgImmWord, field_append_low, field_append_high]
  refine ⟨by simp, by simp, by simp, ?_, by simp, by simp, by simp, by simp⟩
  apply BitVec.eq_of_getLsbD_eq
  intro i hi
  have hi5 : i < 5 := hi
  simp only [BitVec.getLsbD_extractLsb', BitVec.getLsbD_append, hi5, decide_true, Bool.true_and]
  by_cases h : i < 3
  · simp [h]
  · have h2 : i - 3 < 2 := by omega
    have h7 : i - 3 < 7 := by omega
    simp [h, h2, h7]

/-- The fields of a word in the register configuration format (30_encoding.md R113). -/
theorem cfgRegWord_fields (index : BitVec 3) (rs1 : XIdx) :
    let w := cfgRegWord index rs1
    w.extractLsb' 0 7 = majorOpcode ∧ w.extractLsb' 7 5 = 0#5 ∧ w.extractLsb' 12 3 = 0#3 ∧
    w.extractLsb' 15 5 = rs1 ∧ w.extractLsb' 20 5 = 0#5 ∧ w.extractLsb' 25 3 = 7#3 ∧
    w.extractLsb' 28 3 = index ∧ w.extractLsb' 31 1 = 1#1 := by
  simp (disch := decide) only [cfgRegWord, field_append_low, field_append_high]
  simp

/-- What the decoder does with a word in the arithmetic format. -/
theorem decode_arithWord (func : BitVec 4) {uop : BitVec 3} (b24 : BitVec 1)
    (ms2 ms1 r : BitVec 3) (size : BitVec 2) (md : MIdx) (h : uop.toNat < 4) :
    decode (arithWord func uop b24 ms2 ms1 r size md) =
      decodeArith func uop b24 ms2 ms1 r size md := by
  obtain ⟨h0, h1, h2, h3, h4, h5, h6, h7, h8, h9⟩ :=
    arithWord_fields func uop b24 ms2 ms1 r size md
  have hu : uop.toNat = 0 ∨ uop.toNat = 1 ∨ uop.toNat = 2 ∨ uop.toNat = 3 := by omega
  simp only [decode, h0, h1, h2, h3, h4, h5, h6, h7, h8, h9]
  rcases hu with hu | hu | hu | hu <;> simp [hu]

/-- What the decoder does with a load word. -/
theorem decode_loadWord (func : BitVec 4) (rs2 rs1 : XIdx) (size : BitVec 2) (reg : MIdx) :
    decode (memWord func 4#3 rs2 rs1 size reg) = decodeLoad func rs2 rs1 size reg := by
  obtain ⟨h0, h1, h2, h3, h4, h5, h6, h7⟩ := memWord_fields func 4#3 rs2 rs1 size reg
  simp only [decode, h0, h1, h2, h3, h4, h5, h6, h7]
  simp

/-- What the decoder does with a store word. -/
theorem decode_storeWord (func : BitVec 4) (rs2 rs1 : XIdx) (size : BitVec 2) (reg : MIdx) :
    decode (memWord func 5#3 rs2 rs1 size reg) = decodeStore func rs2 rs1 size reg := by
  obtain ⟨h0, h1, h2, h3, h4, h5, h6, h7⟩ := memWord_fields func 5#3 rs2 rs1 size reg
  simp only [decode, h0, h1, h2, h3, h4, h5, h6, h7]
  simp

/-- What the decoder does with an immediate configuration word. -/
theorem decode_cfgImmWord (index : BitVec 3) (uimm7 : BitVec 7) :
    decode (cfgImmWord index uimm7) =
      decodeConfig 0#1 index (uimm7.extractLsb' 2 5) (uimm7.extractLsb' 0 2 ++ 0#3) 0#5 := by
  obtain ⟨h0, h1, h2, h3, h4, h5, h6, h7⟩ := cfgImmWord_fields index uimm7
  simp only [decode, h0, h1, h2, h3, h4, h5, h6, h7]
  simp

/-- What the decoder does with a register configuration word. -/
theorem decode_cfgRegWord (index : BitVec 3) (rs1 : XIdx) :
    decode (cfgRegWord index rs1) = decodeConfig 1#1 index 0#5 rs1 0#5 := by
  obtain ⟨h0, h1, h2, h3, h4, h5, h6, h7⟩ := cfgRegWord_fields index rs1
  simp only [decode, h0, h1, h2, h3, h4, h5, h6, h7]
  simp

/-- Two words are equal if they agree on adjacent fields that cover them. -/
theorem eq_of_fields {v w : BitVec 32} (cuts : List (Nat × Nat))
    (h : ∀ c ∈ cuts, v.extractLsb' c.1 c.2 = w.extractLsb' c.1 c.2)
    (hc : ∀ k < 32, ∃ c ∈ cuts, c.1 ≤ k ∧ k < c.1 + c.2) : v = w := by
  apply BitVec.eq_of_getLsbD_eq
  intro k hk
  obtain ⟨c, hm, h1, h2⟩ := hc k hk
  have := congrArg (fun x => x.getLsbD (k - c.1)) (h c hm)
  simp only [BitVec.getLsbD_extractLsb'] at this
  have e : c.1 + (k - c.1) = k := by omega
  have l : k - c.1 < c.2 := by omega
  simpa [e, l] using this

end Sys2Proof
end

