-- ==== Sys2Proof/Laws/Memory.lean ====
section
/-! SUPPORT. Memory keeps its canonical form, a written byte reads back, and the other bytes are as
they were. -/

namespace Sys2Proof.Machine

@[simp] theorem Memory.read_nil (a : Nat) : Memory.read [] a = unlisted := rfl

/-- A write leaves every other address alone. -/
theorem Memory.read_write_of_ne (m : Memory) {a b : Nat} (v : Byte) (h : b ≠ a) :
    (m.write a v).read b = m.read b := by
  induction m with
  | nil => unfold Memory.write; split <;> simp [Memory.read, h]
  | cons c m ih =>
    obtain ⟨x, w⟩ := c
    unfold Memory.write
    split
    · split <;> simp [Memory.read, h]
    · split
      · subst_vars; split <;> simp [Memory.read, h]
      · simp [Memory.read, ih]

theorem Memory.wfFrom_mono {lo hi : Nat} {m : Memory} (h : lo ≤ hi) (hm : m.wfFrom hi = true) :
    m.wfFrom lo = true := by
  cases m with
  | nil => rfl
  | cons c m => obtain ⟨x, w⟩ := c; simp [Memory.wfFrom] at hm ⊢; exact ⟨⟨by omega, hm.1.2⟩, hm.2⟩

/-- An address below every listed one reads as an unlisted byte. -/
theorem Memory.read_of_lt {lo a : Nat} {m : Memory} (hm : m.wfFrom lo = true) (h : a < lo) :
    m.read a = unlisted := by
  induction m generalizing lo with
  | nil => rfl
  | cons c m ih =>
    obtain ⟨x, w⟩ := c
    simp [Memory.wfFrom] at hm
    have : a ≠ x := by omega
    simp [Memory.read, this, ih hm.2 (by omega)]

theorem Memory.read_write_from {lo : Nat} (m : Memory) (a : Nat) (v : Byte)
    (hm : m.wfFrom lo = true) : (m.write a v).read a = v := by
  induction m generalizing lo with
  | nil => unfold Memory.write; split <;> simp_all [Memory.read]
  | cons c m ih =>
    obtain ⟨x, w⟩ := c
    have hm' := hm
    simp [Memory.wfFrom] at hm
    unfold Memory.write
    split
    · split
      · have hx : a ≠ x := by omega
        simp_all [Memory.read, Memory.read_of_lt hm.2 (a := a) (by omega)]
      · simp [Memory.read]
    · split
      · subst_vars
        split
        · simp_all [Memory.read_of_lt hm.2 (a := x) (by omega)]
        · simp [Memory.read]
      · rename_i h1 h2
        simp [Memory.read, h2, ih hm.2]

/-- A written byte reads back. -/
theorem Memory.read_write_same {m : Memory} (hm : m.wf = true) (a : Nat) (v : Byte) :
    (m.write a v).read a = v := Memory.read_write_from m a v hm

theorem Memory.write_wfFrom {lo : Nat} (m : Memory) {a : Nat} (v : Byte) (hm : m.wfFrom lo = true)
    (ha : lo ≤ a) : (m.write a v).wfFrom lo = true := by
  induction m generalizing lo with
  | nil => unfold Memory.write; split <;> simp_all [Memory.wfFrom]
  | cons c m ih =>
    obtain ⟨x, w⟩ := c
    have hm' := hm
    simp [Memory.wfFrom] at hm
    unfold Memory.write
    split
    · split
      · exact hm'
      · simp_all [Memory.wfFrom]
    · split
      · subst_vars
        split
        · exact Memory.wfFrom_mono (by omega) hm.2
        · simp_all [Memory.wfFrom]
      · simp [Memory.wfFrom, hm.1]
        exact ih hm.2 (by omega)

/-- A write keeps the canonical form. -/
theorem Memory.write_wf {m : Memory} (hm : m.wf = true) (a : Nat) (v : Byte) :
    (m.write a v).wf = true := Memory.write_wfFrom m v hm (Nat.zero_le a)

/-- A list of writes keeps the canonical form. -/
theorem Memory.writeAll_wf {m : Memory} (hm : m.wf = true) (ws : List Host.Cell) :
    (m.writeAll ws).wf = true := by
  induction ws with
  | nil => exact hm
  | cons w ws ih => exact Memory.write_wf ih w.1 w.2

/-- A list of writes leaves every address alone that it does not name. -/
theorem Memory.read_writeAll_of_notMem (m : Memory) {ws : List Host.Cell} {a : Nat}
    (h : ∀ w ∈ ws, w.1 ≠ a) : (m.writeAll ws).read a = m.read a := by
  induction ws with
  | nil => rfl
  | cons w ws ih =>
    have h1 : a ≠ w.1 := fun e => h w (by simp) e.symm
    rw [Memory.writeAll, Memory.read_write_of_ne _ _ h1]
    exact ih fun x hx => h x (by simp [hx])

/-- An address that a list of writes names reads as one of the values written there. -/
theorem Memory.read_writeAll_of_mem {m : Memory} (hm : m.wf = true) {ws : List Host.Cell} {a : Nat}
    {v : Byte} (h : ∃ w ∈ ws, w.1 = a) (hv : ∀ w ∈ ws, w.1 = a → w.2 = v) :
    (m.writeAll ws).read a = v := by
  induction ws with
  | nil => simp at h
  | cons w ws ih =>
    rw [Memory.writeAll]
    by_cases hw : w.1 = a
    · have := hv w (by simp) hw
      subst hw this
      exact Memory.read_write_same (Memory.writeAll_wf hm ws) _ _
    · rw [Memory.read_write_of_ne _ _ (Ne.symm hw)]
      apply ih
      · obtain ⟨x, hx, rfl⟩ := h
        rcases List.mem_cons.mp hx with rfl | hx
        · exact absurd rfl hw
        · exact ⟨x, hx, rfl⟩
      · intro x hx; exact hv x (by simp [hx])

theorem Memory.write_below {m : Memory} {n a : Nat} (v : Byte) (hm : m.below n = true)
    (ha : a < n) : (m.write a v).below n = true := by
  induction m with
  | nil => unfold Memory.write; split <;> simp_all [Memory.below]
  | cons c m ih =>
    obtain ⟨x, w⟩ := c
    simp only [Memory.below, List.all_cons, Bool.and_eq_true] at hm ih ⊢
    unfold Memory.write
    split
    · split
      · simp only [List.all_cons, Bool.and_eq_true]; exact hm
      · simp only [List.all_cons, Bool.and_eq_true, decide_eq_true_eq]
        exact ⟨ha, by simpa using hm.1, hm.2⟩
    · split
      · split
        · exact hm.2
        · simp only [List.all_cons, Bool.and_eq_true, decide_eq_true_eq]; exact ⟨ha, hm.2⟩
      · simp only [List.all_cons, Bool.and_eq_true]
        exact ⟨hm.1, ih hm.2⟩

/-- A list of writes below `n` keeps every listed address below `n`. -/
theorem Memory.writeAll_below {m : Memory} {n : Nat} {ws : List Host.Cell}
    (hm : m.below n = true) (h : ∀ w ∈ ws, w.1 < n) : (m.writeAll ws).below n = true := by
  induction ws with
  | nil => exact hm
  | cons w ws ih =>
    exact Memory.write_below w.2 (ih fun x hx => h x (by simp [hx])) (h w (by simp))

end Sys2Proof.Machine
end

