-- ==== Sys2Proof/Laws/State.lean ====
section
/-! SUPPORT. What each named update of the state does to each field. -/

namespace Sys2Proof.Machine

/-! ### `State.setM` -/

@[simp] theorem State.setM_cfg (s : State) (r : MIdx) (v : MReg) :
    (s.setM r v).cfg = s.cfg := rfl

@[simp] theorem State.setM_pc (s : State) (r : MIdx) (v : MReg) :
    (s.setM r v).pc = s.pc := rfl

@[simp] theorem State.setM_x (s : State) (r : MIdx) (v : MReg) :
    (s.setM r v).x = s.x := rfl

@[simp] theorem State.setM_m (s : State) (r : MIdx) (v : MReg) :
    (s.setM r v).m = s.m.set r.toNat v r.isLt := rfl

@[simp] theorem State.setM_xmrstart (s : State) (r : MIdx) (v : MReg) :
    (s.setM r v).xmrstart = s.xmrstart := rfl

@[simp] theorem State.setM_xmxrm (s : State) (r : MIdx) (v : MReg) :
    (s.setM r v).xmxrm = s.xmxrm := rfl

@[simp] theorem State.setM_xmxsat (s : State) (r : MIdx) (v : MReg) :
    (s.setM r v).xmxsat = s.xmxsat := rfl

@[simp] theorem State.setM_sizeM (s : State) (r : MIdx) (v : MReg) :
    (s.setM r v).sizeM = s.sizeM := rfl

@[simp] theorem State.setM_sizeN (s : State) (r : MIdx) (v : MReg) :
    (s.setM r v).sizeN = s.sizeN := rfl

@[simp] theorem State.setM_sizeK (s : State) (r : MIdx) (v : MReg) :
    (s.setM r v).sizeK = s.sizeK := rfl

@[simp] theorem State.setM_fflags (s : State) (r : MIdx) (v : MReg) :
    (s.setM r v).fflags = s.fflags := rfl

@[simp] theorem State.setM_frm (s : State) (r : MIdx) (v : MReg) :
    (s.setM r v).frm = s.frm := rfl

@[simp] theorem State.setM_bf16 (s : State) (r : MIdx) (v : MReg) :
    (s.setM r v).bf16 = s.bf16 := rfl

@[simp] theorem State.setM_priv (s : State) (r : MIdx) (v : MReg) :
    (s.setM r v).priv = s.priv := rfl

@[simp] theorem State.setM_mstatus (s : State) (r : MIdx) (v : MReg) :
    (s.setM r v).mstatus = s.mstatus := rfl

@[simp] theorem State.setM_mepc (s : State) (r : MIdx) (v : MReg) :
    (s.setM r v).mepc = s.mepc := rfl

@[simp] theorem State.setM_mcause (s : State) (r : MIdx) (v : MReg) :
    (s.setM r v).mcause = s.mcause := rfl

@[simp] theorem State.setM_mtval (s : State) (r : MIdx) (v : MReg) :
    (s.setM r v).mtval = s.mtval := rfl

@[simp] theorem State.setM_mtvec (s : State) (r : MIdx) (v : MReg) :
    (s.setM r v).mtvec = s.mtvec := rfl

@[simp] theorem State.setM_medeleg (s : State) (r : MIdx) (v : MReg) :
    (s.setM r v).medeleg = s.medeleg := rfl

@[simp] theorem State.setM_mideleg (s : State) (r : MIdx) (v : MReg) :
    (s.setM r v).mideleg = s.mideleg := rfl

@[simp] theorem State.setM_sepc (s : State) (r : MIdx) (v : MReg) :
    (s.setM r v).sepc = s.sepc := rfl

@[simp] theorem State.setM_scause (s : State) (r : MIdx) (v : MReg) :
    (s.setM r v).scause = s.scause := rfl

@[simp] theorem State.setM_stval (s : State) (r : MIdx) (v : MReg) :
    (s.setM r v).stval = s.stval := rfl

@[simp] theorem State.setM_stvec (s : State) (r : MIdx) (v : MReg) :
    (s.setM r v).stvec = s.stvec := rfl

@[simp] theorem State.setM_mem (s : State) (r : MIdx) (v : MReg) :
    (s.setM r v).mem = s.mem := rfl

@[simp] theorem State.setM_stale (s : State) (r : MIdx) (v : MReg) :
    (s.setM r v).stale = s.stale := rfl

@[simp] theorem State.setM_instret (s : State) (r : MIdx) (v : MReg) :
    (s.setM r v).instret = s.instret := rfl

@[simp] theorem State.setM_draws (s : State) (r : MIdx) (v : MReg) :
    (s.setM r v).draws = s.draws := rfl

/-! ### `State.accrue` -/

@[simp] theorem State.accrue_cfg (s : State) (g : BitVec 5) :
    (s.accrue g).cfg = s.cfg := rfl

@[simp] theorem State.accrue_pc (s : State) (g : BitVec 5) :
    (s.accrue g).pc = s.pc := rfl

@[simp] theorem State.accrue_x (s : State) (g : BitVec 5) :
    (s.accrue g).x = s.x := rfl

@[simp] theorem State.accrue_m (s : State) (g : BitVec 5) :
    (s.accrue g).m = s.m := rfl

@[simp] theorem State.accrue_xmrstart (s : State) (g : BitVec 5) :
    (s.accrue g).xmrstart = s.xmrstart := rfl

@[simp] theorem State.accrue_xmxrm (s : State) (g : BitVec 5) :
    (s.accrue g).xmxrm = s.xmxrm := rfl

@[simp] theorem State.accrue_xmxsat (s : State) (g : BitVec 5) :
    (s.accrue g).xmxsat = s.xmxsat := rfl

@[simp] theorem State.accrue_sizeM (s : State) (g : BitVec 5) :
    (s.accrue g).sizeM = s.sizeM := rfl

@[simp] theorem State.accrue_sizeN (s : State) (g : BitVec 5) :
    (s.accrue g).sizeN = s.sizeN := rfl

@[simp] theorem State.accrue_sizeK (s : State) (g : BitVec 5) :
    (s.accrue g).sizeK = s.sizeK := rfl

@[simp] theorem State.accrue_fflags (s : State) (g : BitVec 5) :
    (s.accrue g).fflags = s.fflags ||| g := rfl

@[simp] theorem State.accrue_frm (s : State) (g : BitVec 5) :
    (s.accrue g).frm = s.frm := rfl

@[simp] theorem State.accrue_bf16 (s : State) (g : BitVec 5) :
    (s.accrue g).bf16 = s.bf16 := rfl

@[simp] theorem State.accrue_priv (s : State) (g : BitVec 5) :
    (s.accrue g).priv = s.priv := rfl

@[simp] theorem State.accrue_mstatus (s : State) (g : BitVec 5) :
    (s.accrue g).mstatus = s.mstatus := rfl

@[simp] theorem State.accrue_mepc (s : State) (g : BitVec 5) :
    (s.accrue g).mepc = s.mepc := rfl

@[simp] theorem State.accrue_mcause (s : State) (g : BitVec 5) :
    (s.accrue g).mcause = s.mcause := rfl

@[simp] theorem State.accrue_mtval (s : State) (g : BitVec 5) :
    (s.accrue g).mtval = s.mtval := rfl

@[simp] theorem State.accrue_mtvec (s : State) (g : BitVec 5) :
    (s.accrue g).mtvec = s.mtvec := rfl

@[simp] theorem State.accrue_medeleg (s : State) (g : BitVec 5) :
    (s.accrue g).medeleg = s.medeleg := rfl

@[simp] theorem State.accrue_mideleg (s : State) (g : BitVec 5) :
    (s.accrue g).mideleg = s.mideleg := rfl

@[simp] theorem State.accrue_sepc (s : State) (g : BitVec 5) :
    (s.accrue g).sepc = s.sepc := rfl

@[simp] theorem State.accrue_scause (s : State) (g : BitVec 5) :
    (s.accrue g).scause = s.scause := rfl

@[simp] theorem State.accrue_stval (s : State) (g : BitVec 5) :
    (s.accrue g).stval = s.stval := rfl

@[simp] theorem State.accrue_stvec (s : State) (g : BitVec 5) :
    (s.accrue g).stvec = s.stvec := rfl

@[simp] theorem State.accrue_mem (s : State) (g : BitVec 5) :
    (s.accrue g).mem = s.mem := rfl

@[simp] theorem State.accrue_stale (s : State) (g : BitVec 5) :
    (s.accrue g).stale = s.stale := rfl

@[simp] theorem State.accrue_instret (s : State) (g : BitVec 5) :
    (s.accrue g).instret = s.instret := rfl

@[simp] theorem State.accrue_draws (s : State) (g : BitVec 5) :
    (s.accrue g).draws = s.draws := rfl

/-! ### `State.saturate` -/

@[simp] theorem State.saturate_cfg (s : State) (b : Bool) :
    (s.saturate b).cfg = s.cfg := rfl

@[simp] theorem State.saturate_pc (s : State) (b : Bool) :
    (s.saturate b).pc = s.pc := rfl

@[simp] theorem State.saturate_x (s : State) (b : Bool) :
    (s.saturate b).x = s.x := rfl

@[simp] theorem State.saturate_m (s : State) (b : Bool) :
    (s.saturate b).m = s.m := rfl

@[simp] theorem State.saturate_xmrstart (s : State) (b : Bool) :
    (s.saturate b).xmrstart = s.xmrstart := rfl

@[simp] theorem State.saturate_xmxrm (s : State) (b : Bool) :
    (s.saturate b).xmxrm = s.xmxrm := rfl

@[simp] theorem State.saturate_xmxsat (s : State) (b : Bool) :
    (s.saturate b).xmxsat = (s.xmxsat || b) := rfl

@[simp] theorem State.saturate_sizeM (s : State) (b : Bool) :
    (s.saturate b).sizeM = s.sizeM := rfl

@[simp] theorem State.saturate_sizeN (s : State) (b : Bool) :
    (s.saturate b).sizeN = s.sizeN := rfl

@[simp] theorem State.saturate_sizeK (s : State) (b : Bool) :
    (s.saturate b).sizeK = s.sizeK := rfl

@[simp] theorem State.saturate_fflags (s : State) (b : Bool) :
    (s.saturate b).fflags = s.fflags := rfl

@[simp] theorem State.saturate_frm (s : State) (b : Bool) :
    (s.saturate b).frm = s.frm := rfl

@[simp] theorem State.saturate_bf16 (s : State) (b : Bool) :
    (s.saturate b).bf16 = s.bf16 := rfl

@[simp] theorem State.saturate_priv (s : State) (b : Bool) :
    (s.saturate b).priv = s.priv := rfl

@[simp] theorem State.saturate_mstatus (s : State) (b : Bool) :
    (s.saturate b).mstatus = s.mstatus := rfl

@[simp] theorem State.saturate_mepc (s : State) (b : Bool) :
    (s.saturate b).mepc = s.mepc := rfl

@[simp] theorem State.saturate_mcause (s : State) (b : Bool) :
    (s.saturate b).mcause = s.mcause := rfl

@[simp] theorem State.saturate_mtval (s : State) (b : Bool) :
    (s.saturate b).mtval = s.mtval := rfl

@[simp] theorem State.saturate_mtvec (s : State) (b : Bool) :
    (s.saturate b).mtvec = s.mtvec := rfl

@[simp] theorem State.saturate_medeleg (s : State) (b : Bool) :
    (s.saturate b).medeleg = s.medeleg := rfl

@[simp] theorem State.saturate_mideleg (s : State) (b : Bool) :
    (s.saturate b).mideleg = s.mideleg := rfl

@[simp] theorem State.saturate_sepc (s : State) (b : Bool) :
    (s.saturate b).sepc = s.sepc := rfl

@[simp] theorem State.saturate_scause (s : State) (b : Bool) :
    (s.saturate b).scause = s.scause := rfl

@[simp] theorem State.saturate_stval (s : State) (b : Bool) :
    (s.saturate b).stval = s.stval := rfl

@[simp] theorem State.saturate_stvec (s : State) (b : Bool) :
    (s.saturate b).stvec = s.stvec := rfl

@[simp] theorem State.saturate_mem (s : State) (b : Bool) :
    (s.saturate b).mem = s.mem := rfl

@[simp] theorem State.saturate_stale (s : State) (b : Bool) :
    (s.saturate b).stale = s.stale := rfl

@[simp] theorem State.saturate_instret (s : State) (b : Bool) :
    (s.saturate b).instret = s.instret := rfl

@[simp] theorem State.saturate_draws (s : State) (b : Bool) :
    (s.saturate b).draws = s.draws := rfl

/-! ### `State.dirtyMS` -/

@[simp] theorem State.dirtyMS_cfg (s : State) :
    (s.dirtyMS).cfg = s.cfg := rfl

@[simp] theorem State.dirtyMS_pc (s : State) :
    (s.dirtyMS).pc = s.pc := rfl

@[simp] theorem State.dirtyMS_x (s : State) :
    (s.dirtyMS).x = s.x := rfl

@[simp] theorem State.dirtyMS_m (s : State) :
    (s.dirtyMS).m = s.m := rfl

@[simp] theorem State.dirtyMS_xmrstart (s : State) :
    (s.dirtyMS).xmrstart = s.xmrstart := rfl

@[simp] theorem State.dirtyMS_xmxrm (s : State) :
    (s.dirtyMS).xmxrm = s.xmxrm := rfl

@[simp] theorem State.dirtyMS_xmxsat (s : State) :
    (s.dirtyMS).xmxsat = s.xmxsat := rfl

@[simp] theorem State.dirtyMS_sizeM (s : State) :
    (s.dirtyMS).sizeM = s.sizeM := rfl

@[simp] theorem State.dirtyMS_sizeN (s : State) :
    (s.dirtyMS).sizeN = s.sizeN := rfl

@[simp] theorem State.dirtyMS_sizeK (s : State) :
    (s.dirtyMS).sizeK = s.sizeK := rfl

@[simp] theorem State.dirtyMS_fflags (s : State) :
    (s.dirtyMS).fflags = s.fflags := rfl

@[simp] theorem State.dirtyMS_frm (s : State) :
    (s.dirtyMS).frm = s.frm := rfl

@[simp] theorem State.dirtyMS_bf16 (s : State) :
    (s.dirtyMS).bf16 = s.bf16 := rfl

@[simp] theorem State.dirtyMS_priv (s : State) :
    (s.dirtyMS).priv = s.priv := rfl

@[simp] theorem State.dirtyMS_mstatus (s : State) :
    (s.dirtyMS).mstatus = { s.mstatus with ms := 3#2 } := rfl

@[simp] theorem State.dirtyMS_mepc (s : State) :
    (s.dirtyMS).mepc = s.mepc := rfl

@[simp] theorem State.dirtyMS_mcause (s : State) :
    (s.dirtyMS).mcause = s.mcause := rfl

@[simp] theorem State.dirtyMS_mtval (s : State) :
    (s.dirtyMS).mtval = s.mtval := rfl

@[simp] theorem State.dirtyMS_mtvec (s : State) :
    (s.dirtyMS).mtvec = s.mtvec := rfl

@[simp] theorem State.dirtyMS_medeleg (s : State) :
    (s.dirtyMS).medeleg = s.medeleg := rfl

@[simp] theorem State.dirtyMS_mideleg (s : State) :
    (s.dirtyMS).mideleg = s.mideleg := rfl

@[simp] theorem State.dirtyMS_sepc (s : State) :
    (s.dirtyMS).sepc = s.sepc := rfl

@[simp] theorem State.dirtyMS_scause (s : State) :
    (s.dirtyMS).scause = s.scause := rfl

@[simp] theorem State.dirtyMS_stval (s : State) :
    (s.dirtyMS).stval = s.stval := rfl

@[simp] theorem State.dirtyMS_stvec (s : State) :
    (s.dirtyMS).stvec = s.stvec := rfl

@[simp] theorem State.dirtyMS_mem (s : State) :
    (s.dirtyMS).mem = s.mem := rfl

@[simp] theorem State.dirtyMS_stale (s : State) :
    (s.dirtyMS).stale = s.stale := rfl

@[simp] theorem State.dirtyMS_instret (s : State) :
    (s.dirtyMS).instret = s.instret := rfl

@[simp] theorem State.dirtyMS_draws (s : State) :
    (s.dirtyMS).draws = s.draws := rfl

/-! ### `State.dirtyFS` -/

@[simp] theorem State.dirtyFS_cfg (s : State) :
    (s.dirtyFS).cfg = s.cfg := rfl

@[simp] theorem State.dirtyFS_pc (s : State) :
    (s.dirtyFS).pc = s.pc := rfl

@[simp] theorem State.dirtyFS_x (s : State) :
    (s.dirtyFS).x = s.x := rfl

@[simp] theorem State.dirtyFS_m (s : State) :
    (s.dirtyFS).m = s.m := rfl

@[simp] theorem State.dirtyFS_xmrstart (s : State) :
    (s.dirtyFS).xmrstart = s.xmrstart := rfl

@[simp] theorem State.dirtyFS_xmxrm (s : State) :
    (s.dirtyFS).xmxrm = s.xmxrm := rfl

@[simp] theorem State.dirtyFS_xmxsat (s : State) :
    (s.dirtyFS).xmxsat = s.xmxsat := rfl

@[simp] theorem State.dirtyFS_sizeM (s : State) :
    (s.dirtyFS).sizeM = s.sizeM := rfl

@[simp] theorem State.dirtyFS_sizeN (s : State) :
    (s.dirtyFS).sizeN = s.sizeN := rfl

@[simp] theorem State.dirtyFS_sizeK (s : State) :
    (s.dirtyFS).sizeK = s.sizeK := rfl

@[simp] theorem State.dirtyFS_fflags (s : State) :
    (s.dirtyFS).fflags = s.fflags := rfl

@[simp] theorem State.dirtyFS_frm (s : State) :
    (s.dirtyFS).frm = s.frm := rfl

@[simp] theorem State.dirtyFS_bf16 (s : State) :
    (s.dirtyFS).bf16 = s.bf16 := rfl

@[simp] theorem State.dirtyFS_priv (s : State) :
    (s.dirtyFS).priv = s.priv := rfl

@[simp] theorem State.dirtyFS_mstatus (s : State) :
    (s.dirtyFS).mstatus = { s.mstatus with fs := 3#2 } := rfl

@[simp] theorem State.dirtyFS_mepc (s : State) :
    (s.dirtyFS).mepc = s.mepc := rfl

@[simp] theorem State.dirtyFS_mcause (s : State) :
    (s.dirtyFS).mcause = s.mcause := rfl

@[simp] theorem State.dirtyFS_mtval (s : State) :
    (s.dirtyFS).mtval = s.mtval := rfl

@[simp] theorem State.dirtyFS_mtvec (s : State) :
    (s.dirtyFS).mtvec = s.mtvec := rfl

@[simp] theorem State.dirtyFS_medeleg (s : State) :
    (s.dirtyFS).medeleg = s.medeleg := rfl

@[simp] theorem State.dirtyFS_mideleg (s : State) :
    (s.dirtyFS).mideleg = s.mideleg := rfl

@[simp] theorem State.dirtyFS_sepc (s : State) :
    (s.dirtyFS).sepc = s.sepc := rfl

@[simp] theorem State.dirtyFS_scause (s : State) :
    (s.dirtyFS).scause = s.scause := rfl

@[simp] theorem State.dirtyFS_stval (s : State) :
    (s.dirtyFS).stval = s.stval := rfl

@[simp] theorem State.dirtyFS_stvec (s : State) :
    (s.dirtyFS).stvec = s.stvec := rfl

@[simp] theorem State.dirtyFS_mem (s : State) :
    (s.dirtyFS).mem = s.mem := rfl

@[simp] theorem State.dirtyFS_stale (s : State) :
    (s.dirtyFS).stale = s.stale := rfl

@[simp] theorem State.dirtyFS_instret (s : State) :
    (s.dirtyFS).instret = s.instret := rfl

@[simp] theorem State.dirtyFS_draws (s : State) :
    (s.dirtyFS).draws = s.draws := rfl

/-! ### `State.retire` -/

@[simp] theorem State.retire_cfg (s : State) :
    (s.retire).cfg = s.cfg := rfl

@[simp] theorem State.retire_pc (s : State) :
    (s.retire).pc = s.pc := rfl

@[simp] theorem State.retire_x (s : State) :
    (s.retire).x = s.x := rfl

@[simp] theorem State.retire_m (s : State) :
    (s.retire).m = s.m := rfl

@[simp] theorem State.retire_xmrstart (s : State) :
    (s.retire).xmrstart = s.xmrstart := rfl

@[simp] theorem State.retire_xmxrm (s : State) :
    (s.retire).xmxrm = s.xmxrm := rfl

@[simp] theorem State.retire_xmxsat (s : State) :
    (s.retire).xmxsat = s.xmxsat := rfl

@[simp] theorem State.retire_sizeM (s : State) :
    (s.retire).sizeM = s.sizeM := rfl

@[simp] theorem State.retire_sizeN (s : State) :
    (s.retire).sizeN = s.sizeN := rfl

@[simp] theorem State.retire_sizeK (s : State) :
    (s.retire).sizeK = s.sizeK := rfl

@[simp] theorem State.retire_fflags (s : State) :
    (s.retire).fflags = s.fflags := rfl

@[simp] theorem State.retire_frm (s : State) :
    (s.retire).frm = s.frm := rfl

@[simp] theorem State.retire_bf16 (s : State) :
    (s.retire).bf16 = s.bf16 := rfl

@[simp] theorem State.retire_priv (s : State) :
    (s.retire).priv = s.priv := rfl

@[simp] theorem State.retire_mstatus (s : State) :
    (s.retire).mstatus = s.mstatus := rfl

@[simp] theorem State.retire_mepc (s : State) :
    (s.retire).mepc = s.mepc := rfl

@[simp] theorem State.retire_mcause (s : State) :
    (s.retire).mcause = s.mcause := rfl

@[simp] theorem State.retire_mtval (s : State) :
    (s.retire).mtval = s.mtval := rfl

@[simp] theorem State.retire_mtvec (s : State) :
    (s.retire).mtvec = s.mtvec := rfl

@[simp] theorem State.retire_medeleg (s : State) :
    (s.retire).medeleg = s.medeleg := rfl

@[simp] theorem State.retire_mideleg (s : State) :
    (s.retire).mideleg = s.mideleg := rfl

@[simp] theorem State.retire_sepc (s : State) :
    (s.retire).sepc = s.sepc := rfl

@[simp] theorem State.retire_scause (s : State) :
    (s.retire).scause = s.scause := rfl

@[simp] theorem State.retire_stval (s : State) :
    (s.retire).stval = s.stval := rfl

@[simp] theorem State.retire_stvec (s : State) :
    (s.retire).stvec = s.stvec := rfl

@[simp] theorem State.retire_mem (s : State) :
    (s.retire).mem = s.mem := rfl

@[simp] theorem State.retire_stale (s : State) :
    (s.retire).stale = s.stale := rfl

@[simp] theorem State.retire_instret (s : State) :
    (s.retire).instret = s.instret + 1 := rfl

@[simp] theorem State.retire_draws (s : State) :
    (s.retire).draws = s.draws := rfl

/-! ### `State.advance` -/

@[simp] theorem State.advance_cfg (s : State) :
    (s.advance).cfg = s.cfg := rfl

@[simp] theorem State.advance_pc (s : State) :
    (s.advance).pc = s.nextPc := rfl

@[simp] theorem State.advance_x (s : State) :
    (s.advance).x = s.x := rfl

@[simp] theorem State.advance_m (s : State) :
    (s.advance).m = s.m := rfl

@[simp] theorem State.advance_xmrstart (s : State) :
    (s.advance).xmrstart = s.xmrstart := rfl

@[simp] theorem State.advance_xmxrm (s : State) :
    (s.advance).xmxrm = s.xmxrm := rfl

@[simp] theorem State.advance_xmxsat (s : State) :
    (s.advance).xmxsat = s.xmxsat := rfl

@[simp] theorem State.advance_sizeM (s : State) :
    (s.advance).sizeM = s.sizeM := rfl

@[simp] theorem State.advance_sizeN (s : State) :
    (s.advance).sizeN = s.sizeN := rfl

@[simp] theorem State.advance_sizeK (s : State) :
    (s.advance).sizeK = s.sizeK := rfl

@[simp] theorem State.advance_fflags (s : State) :
    (s.advance).fflags = s.fflags := rfl

@[simp] theorem State.advance_frm (s : State) :
    (s.advance).frm = s.frm := rfl

@[simp] theorem State.advance_bf16 (s : State) :
    (s.advance).bf16 = s.bf16 := rfl

@[simp] theorem State.advance_priv (s : State) :
    (s.advance).priv = s.priv := rfl

@[simp] theorem State.advance_mstatus (s : State) :
    (s.advance).mstatus = s.mstatus := rfl

@[simp] theorem State.advance_mepc (s : State) :
    (s.advance).mepc = s.mepc := rfl

@[simp] theorem State.advance_mcause (s : State) :
    (s.advance).mcause = s.mcause := rfl

@[simp] theorem State.advance_mtval (s : State) :
    (s.advance).mtval = s.mtval := rfl

@[simp] theorem State.advance_mtvec (s : State) :
    (s.advance).mtvec = s.mtvec := rfl

@[simp] theorem State.advance_medeleg (s : State) :
    (s.advance).medeleg = s.medeleg := rfl

@[simp] theorem State.advance_mideleg (s : State) :
    (s.advance).mideleg = s.mideleg := rfl

@[simp] theorem State.advance_sepc (s : State) :
    (s.advance).sepc = s.sepc := rfl

@[simp] theorem State.advance_scause (s : State) :
    (s.advance).scause = s.scause := rfl

@[simp] theorem State.advance_stval (s : State) :
    (s.advance).stval = s.stval := rfl

@[simp] theorem State.advance_stvec (s : State) :
    (s.advance).stvec = s.stvec := rfl

@[simp] theorem State.advance_mem (s : State) :
    (s.advance).mem = s.mem := rfl

@[simp] theorem State.advance_stale (s : State) :
    (s.advance).stale = s.stale := rfl

@[simp] theorem State.advance_instret (s : State) :
    (s.advance).instret = s.instret + 1 := rfl

@[simp] theorem State.advance_draws (s : State) :
    (s.advance).draws = s.draws := rfl

/-! ### `State.finish` -/

@[simp] theorem State.finish_cfg (s : State) :
    (s.finish).cfg = s.cfg := rfl

@[simp] theorem State.finish_pc (s : State) :
    (s.finish).pc = s.nextPc := rfl

@[simp] theorem State.finish_x (s : State) :
    (s.finish).x = s.x := rfl

@[simp] theorem State.finish_m (s : State) :
    (s.finish).m = s.m := rfl

@[simp] theorem State.finish_xmrstart (s : State) :
    (s.finish).xmrstart = 0 := rfl

@[simp] theorem State.finish_xmxrm (s : State) :
    (s.finish).xmxrm = s.xmxrm := rfl

@[simp] theorem State.finish_xmxsat (s : State) :
    (s.finish).xmxsat = s.xmxsat := rfl

@[simp] theorem State.finish_sizeM (s : State) :
    (s.finish).sizeM = s.sizeM := rfl

@[simp] theorem State.finish_sizeN (s : State) :
    (s.finish).sizeN = s.sizeN := rfl

@[simp] theorem State.finish_sizeK (s : State) :
    (s.finish).sizeK = s.sizeK := rfl

@[simp] theorem State.finish_fflags (s : State) :
    (s.finish).fflags = s.fflags := rfl

@[simp] theorem State.finish_frm (s : State) :
    (s.finish).frm = s.frm := rfl

@[simp] theorem State.finish_bf16 (s : State) :
    (s.finish).bf16 = s.bf16 := rfl

@[simp] theorem State.finish_priv (s : State) :
    (s.finish).priv = s.priv := rfl

@[simp] theorem State.finish_mstatus (s : State) :
    (s.finish).mstatus = { s.mstatus with ms := 3#2 } := rfl

@[simp] theorem State.finish_mepc (s : State) :
    (s.finish).mepc = s.mepc := rfl

@[simp] theorem State.finish_mcause (s : State) :
    (s.finish).mcause = s.mcause := rfl

@[simp] theorem State.finish_mtval (s : State) :
    (s.finish).mtval = s.mtval := rfl

@[simp] theorem State.finish_mtvec (s : State) :
    (s.finish).mtvec = s.mtvec := rfl

@[simp] theorem State.finish_medeleg (s : State) :
    (s.finish).medeleg = s.medeleg := rfl

@[simp] theorem State.finish_mideleg (s : State) :
    (s.finish).mideleg = s.mideleg := rfl

@[simp] theorem State.finish_sepc (s : State) :
    (s.finish).sepc = s.sepc := rfl

@[simp] theorem State.finish_scause (s : State) :
    (s.finish).scause = s.scause := rfl

@[simp] theorem State.finish_stval (s : State) :
    (s.finish).stval = s.stval := rfl

@[simp] theorem State.finish_stvec (s : State) :
    (s.finish).stvec = s.stvec := rfl

@[simp] theorem State.finish_mem (s : State) :
    (s.finish).mem = s.mem := rfl

@[simp] theorem State.finish_stale (s : State) :
    (s.finish).stale = s.stale := rfl

@[simp] theorem State.finish_instret (s : State) :
    (s.finish).instret = s.instret + 1 := rfl

@[simp] theorem State.finish_draws (s : State) :
    (s.finish).draws = s.draws := rfl

/-! ### `State.storeBytes` -/

@[simp] theorem State.storeBytes_cfg (s : State) (a b : List Host.Cell) :
    (s.storeBytes a b).cfg = s.cfg := rfl

@[simp] theorem State.storeBytes_pc (s : State) (a b : List Host.Cell) :
    (s.storeBytes a b).pc = s.pc := rfl

@[simp] theorem State.storeBytes_x (s : State) (a b : List Host.Cell) :
    (s.storeBytes a b).x = s.x := rfl

@[simp] theorem State.storeBytes_m (s : State) (a b : List Host.Cell) :
    (s.storeBytes a b).m = s.m := rfl

@[simp] theorem State.storeBytes_xmrstart (s : State) (a b : List Host.Cell) :
    (s.storeBytes a b).xmrstart = s.xmrstart := rfl

@[simp] theorem State.storeBytes_xmxrm (s : State) (a b : List Host.Cell) :
    (s.storeBytes a b).xmxrm = s.xmxrm := rfl

@[simp] theorem State.storeBytes_xmxsat (s : State) (a b : List Host.Cell) :
    (s.storeBytes a b).xmxsat = s.xmxsat := rfl

@[simp] theorem State.storeBytes_sizeM (s : State) (a b : List Host.Cell) :
    (s.storeBytes a b).sizeM = s.sizeM := rfl

@[simp] theorem State.storeBytes_sizeN (s : State) (a b : List Host.Cell) :
    (s.storeBytes a b).sizeN = s.sizeN := rfl

@[simp] theorem State.storeBytes_sizeK (s : State) (a b : List Host.Cell) :
    (s.storeBytes a b).sizeK = s.sizeK := rfl

@[simp] theorem State.storeBytes_fflags (s : State) (a b : List Host.Cell) :
    (s.storeBytes a b).fflags = s.fflags := rfl

@[simp] theorem State.storeBytes_frm (s : State) (a b : List Host.Cell) :
    (s.storeBytes a b).frm = s.frm := rfl

@[simp] theorem State.storeBytes_bf16 (s : State) (a b : List Host.Cell) :
    (s.storeBytes a b).bf16 = s.bf16 := rfl

@[simp] theorem State.storeBytes_priv (s : State) (a b : List Host.Cell) :
    (s.storeBytes a b).priv = s.priv := rfl

@[simp] theorem State.storeBytes_mstatus (s : State) (a b : List Host.Cell) :
    (s.storeBytes a b).mstatus = s.mstatus := rfl

@[simp] theorem State.storeBytes_mepc (s : State) (a b : List Host.Cell) :
    (s.storeBytes a b).mepc = s.mepc := rfl

@[simp] theorem State.storeBytes_mcause (s : State) (a b : List Host.Cell) :
    (s.storeBytes a b).mcause = s.mcause := rfl

@[simp] theorem State.storeBytes_mtval (s : State) (a b : List Host.Cell) :
    (s.storeBytes a b).mtval = s.mtval := rfl

@[simp] theorem State.storeBytes_mtvec (s : State) (a b : List Host.Cell) :
    (s.storeBytes a b).mtvec = s.mtvec := rfl

@[simp] theorem State.storeBytes_medeleg (s : State) (a b : List Host.Cell) :
    (s.storeBytes a b).medeleg = s.medeleg := rfl

@[simp] theorem State.storeBytes_mideleg (s : State) (a b : List Host.Cell) :
    (s.storeBytes a b).mideleg = s.mideleg := rfl

@[simp] theorem State.storeBytes_sepc (s : State) (a b : List Host.Cell) :
    (s.storeBytes a b).sepc = s.sepc := rfl

@[simp] theorem State.storeBytes_scause (s : State) (a b : List Host.Cell) :
    (s.storeBytes a b).scause = s.scause := rfl

@[simp] theorem State.storeBytes_stval (s : State) (a b : List Host.Cell) :
    (s.storeBytes a b).stval = s.stval := rfl

@[simp] theorem State.storeBytes_stvec (s : State) (a b : List Host.Cell) :
    (s.storeBytes a b).stvec = s.stvec := rfl

@[simp] theorem State.storeBytes_mem (s : State) (a b : List Host.Cell) :
    (s.storeBytes a b).mem = s.mem.writeAll (s.settled a b) := rfl

/-! ### `State.trapToM` -/

@[simp] theorem State.trapToM_cfg (s : State) (b : Bool) (c : Nat) (v : Word) :
    (s.trapToM b c v).cfg = s.cfg := rfl

@[simp] theorem State.trapToM_pc (s : State) (b : Bool) (c : Nat) (v : Word) :
    (s.trapToM b c v).pc = trapPc s.cfg.xlen s.mtvec b c := rfl

@[simp] theorem State.trapToM_x (s : State) (b : Bool) (c : Nat) (v : Word) :
    (s.trapToM b c v).x = s.x := rfl

@[simp] theorem State.trapToM_m (s : State) (b : Bool) (c : Nat) (v : Word) :
    (s.trapToM b c v).m = s.m := rfl

@[simp] theorem State.trapToM_xmrstart (s : State) (b : Bool) (c : Nat) (v : Word) :
    (s.trapToM b c v).xmrstart = s.xmrstart := rfl

@[simp] theorem State.trapToM_xmxrm (s : State) (b : Bool) (c : Nat) (v : Word) :
    (s.trapToM b c v).xmxrm = s.xmxrm := rfl

@[simp] theorem State.trapToM_xmxsat (s : State) (b : Bool) (c : Nat) (v : Word) :
    (s.trapToM b c v).xmxsat = s.xmxsat := rfl

@[simp] theorem State.trapToM_sizeM (s : State) (b : Bool) (c : Nat) (v : Word) :
    (s.trapToM b c v).sizeM = s.sizeM := rfl

@[simp] theorem State.trapToM_sizeN (s : State) (b : Bool) (c : Nat) (v : Word) :
    (s.trapToM b c v).sizeN = s.sizeN := rfl

@[simp] theorem State.trapToM_sizeK (s : State) (b : Bool) (c : Nat) (v : Word) :
    (s.trapToM b c v).sizeK = s.sizeK := rfl

@[simp] theorem State.trapToM_fflags (s : State) (b : Bool) (c : Nat) (v : Word) :
    (s.trapToM b c v).fflags = s.fflags := rfl

@[simp] theorem State.trapToM_frm (s : State) (b : Bool) (c : Nat) (v : Word) :
    (s.trapToM b c v).frm = s.frm := rfl

@[simp] theorem State.trapToM_bf16 (s : State) (b : Bool) (c : Nat) (v : Word) :
    (s.trapToM b c v).bf16 = s.bf16 := rfl

@[simp] theorem State.trapToM_priv (s : State) (b : Bool) (c : Nat) (v : Word) :
    (s.trapToM b c v).priv = .m := rfl

@[simp] theorem State.trapToM_mstatus (s : State) (b : Bool) (c : Nat) (v : Word) :
    (s.trapToM b c v).mstatus = { s.mstatus with mpp := s.priv, mpie := s.mstatus.mie, mie := false } := rfl

@[simp] theorem State.trapToM_mepc (s : State) (b : Bool) (c : Nat) (v : Word) :
    (s.trapToM b c v).mepc = s.pc := rfl

@[simp] theorem State.trapToM_mcause (s : State) (b : Bool) (c : Nat) (v : Word) :
    (s.trapToM b c v).mcause = causeWord s.cfg.xlen b c := rfl

@[simp] theorem State.trapToM_mtval (s : State) (b : Bool) (c : Nat) (v : Word) :
    (s.trapToM b c v).mtval = v := rfl

@[simp] theorem State.trapToM_mtvec (s : State) (b : Bool) (c : Nat) (v : Word) :
    (s.trapToM b c v).mtvec = s.mtvec := rfl

@[simp] theorem State.trapToM_medeleg (s : State) (b : Bool) (c : Nat) (v : Word) :
    (s.trapToM b c v).medeleg = s.medeleg := rfl

@[simp] theorem State.trapToM_mideleg (s : State) (b : Bool) (c : Nat) (v : Word) :
    (s.trapToM b c v).mideleg = s.mideleg := rfl

@[simp] theorem State.trapToM_sepc (s : State) (b : Bool) (c : Nat) (v : Word) :
    (s.trapToM b c v).sepc = s.sepc := rfl

@[simp] theorem State.trapToM_scause (s : State) (b : Bool) (c : Nat) (v : Word) :
    (s.trapToM b c v).scause = s.scause := rfl

@[simp] theorem State.trapToM_stval (s : State) (b : Bool) (c : Nat) (v : Word) :
    (s.trapToM b c v).stval = s.stval := rfl

@[simp] theorem State.trapToM_stvec (s : State) (b : Bool) (c : Nat) (v : Word) :
    (s.trapToM b c v).stvec = s.stvec := rfl

@[simp] theorem State.trapToM_mem (s : State) (b : Bool) (c : Nat) (v : Word) :
    (s.trapToM b c v).mem = s.mem := rfl

@[simp] theorem State.trapToM_stale (s : State) (b : Bool) (c : Nat) (v : Word) :
    (s.trapToM b c v).stale = s.stale := rfl

@[simp] theorem State.trapToM_instret (s : State) (b : Bool) (c : Nat) (v : Word) :
    (s.trapToM b c v).instret = s.instret := rfl

@[simp] theorem State.trapToM_draws (s : State) (b : Bool) (c : Nat) (v : Word) :
    (s.trapToM b c v).draws = s.draws := rfl

/-! ### `State.trapToS` -/

@[simp] theorem State.trapToS_cfg (s : State) (b : Bool) (c : Nat) (v : Word) :
    (s.trapToS b c v).cfg = s.cfg := rfl

@[simp] theorem State.trapToS_pc (s : State) (b : Bool) (c : Nat) (v : Word) :
    (s.trapToS b c v).pc = trapPc s.cfg.xlen s.stvec b c := rfl

@[simp] theorem State.trapToS_x (s : State) (b : Bool) (c : Nat) (v : Word) :
    (s.trapToS b c v).x = s.x := rfl

@[simp] theorem State.trapToS_m (s : State) (b : Bool) (c : Nat) (v : Word) :
    (s.trapToS b c v).m = s.m := rfl

@[simp] theorem State.trapToS_xmrstart (s : State) (b : Bool) (c : Nat) (v : Word) :
    (s.trapToS b c v).xmrstart = s.xmrstart := rfl

@[simp] theorem State.trapToS_xmxrm (s : State) (b : Bool) (c : Nat) (v : Word) :
    (s.trapToS b c v).xmxrm = s.xmxrm := rfl

@[simp] theorem State.trapToS_xmxsat (s : State) (b : Bool) (c : Nat) (v : Word) :
    (s.trapToS b c v).xmxsat = s.xmxsat := rfl

@[simp] theorem State.trapToS_sizeM (s : State) (b : Bool) (c : Nat) (v : Word) :
    (s.trapToS b c v).sizeM = s.sizeM := rfl

@[simp] theorem State.trapToS_sizeN (s : State) (b : Bool) (c : Nat) (v : Word) :
    (s.trapToS b c v).sizeN = s.sizeN := rfl

@[simp] theorem State.trapToS_sizeK (s : State) (b : Bool) (c : Nat) (v : Word) :
    (s.trapToS b c v).sizeK = s.sizeK := rfl

@[simp] theorem State.trapToS_fflags (s : State) (b : Bool) (c : Nat) (v : Word) :
    (s.trapToS b c v).fflags = s.fflags := rfl

@[simp] theorem State.trapToS_frm (s : State) (b : Bool) (c : Nat) (v : Word) :
    (s.trapToS b c v).frm = s.frm := rfl

@[simp] theorem State.trapToS_bf16 (s : State) (b : Bool) (c : Nat) (v : Word) :
    (s.trapToS b c v).bf16 = s.bf16 := rfl

@[simp] theorem State.trapToS_priv (s : State) (b : Bool) (c : Nat) (v : Word) :
    (s.trapToS b c v).priv = .s := rfl

@[simp] theorem State.trapToS_mstatus (s : State) (b : Bool) (c : Nat) (v : Word) :
    (s.trapToS b c v).mstatus = { s.mstatus with spp := s.priv != .u, spie := s.mstatus.sie, sie := false } := rfl

@[simp] theorem State.trapToS_mepc (s : State) (b : Bool) (c : Nat) (v : Word) :
    (s.trapToS b c v).mepc = s.mepc := rfl

@[simp] theorem State.trapToS_mcause (s : State) (b : Bool) (c : Nat) (v : Word) :
    (s.trapToS b c v).mcause = s.mcause := rfl

@[simp] theorem State.trapToS_mtval (s : State) (b : Bool) (c : Nat) (v : Word) :
    (s.trapToS b c v).mtval = s.mtval := rfl

@[simp] theorem State.trapToS_mtvec (s : State) (b : Bool) (c : Nat) (v : Word) :
    (s.trapToS b c v).mtvec = s.mtvec := rfl

@[simp] theorem State.trapToS_medeleg (s : State) (b : Bool) (c : Nat) (v : Word) :
    (s.trapToS b c v).medeleg = s.medeleg := rfl

@[simp] theorem State.trapToS_mideleg (s : State) (b : Bool) (c : Nat) (v : Word) :
    (s.trapToS b c v).mideleg = s.mideleg := rfl

@[simp] theorem State.trapToS_sepc (s : State) (b : Bool) (c : Nat) (v : Word) :
    (s.trapToS b c v).sepc = s.pc := rfl

@[simp] theorem State.trapToS_scause (s : State) (b : Bool) (c : Nat) (v : Word) :
    (s.trapToS b c v).scause = causeWord s.cfg.xlen b c := rfl

@[simp] theorem State.trapToS_stval (s : State) (b : Bool) (c : Nat) (v : Word) :
    (s.trapToS b c v).stval = v := rfl

@[simp] theorem State.trapToS_stvec (s : State) (b : Bool) (c : Nat) (v : Word) :
    (s.trapToS b c v).stvec = s.stvec := rfl

@[simp] theorem State.trapToS_mem (s : State) (b : Bool) (c : Nat) (v : Word) :
    (s.trapToS b c v).mem = s.mem := rfl

@[simp] theorem State.trapToS_stale (s : State) (b : Bool) (c : Nat) (v : Word) :
    (s.trapToS b c v).stale = s.stale := rfl

@[simp] theorem State.trapToS_instret (s : State) (b : Bool) (c : Nat) (v : Word) :
    (s.trapToS b c v).instret = s.instret := rfl

@[simp] theorem State.trapToS_draws (s : State) (b : Bool) (c : Nat) (v : Word) :
    (s.trapToS b c v).draws = s.draws := rfl

/-! ### `State.returnFromM` -/

@[simp] theorem State.returnFromM_cfg (s : State) :
    (s.returnFromM).cfg = s.cfg := rfl

@[simp] theorem State.returnFromM_pc (s : State) :
    (s.returnFromM).pc = s.mepc := rfl

@[simp] theorem State.returnFromM_x (s : State) :
    (s.returnFromM).x = s.x := rfl

@[simp] theorem State.returnFromM_m (s : State) :
    (s.returnFromM).m = s.m := rfl

@[simp] theorem State.returnFromM_xmrstart (s : State) :
    (s.returnFromM).xmrstart = s.xmrstart := rfl

@[simp] theorem State.returnFromM_xmxrm (s : State) :
    (s.returnFromM).xmxrm = s.xmxrm := rfl

@[simp] theorem State.returnFromM_xmxsat (s : State) :
    (s.returnFromM).xmxsat = s.xmxsat := rfl

@[simp] theorem State.returnFromM_sizeM (s : State) :
    (s.returnFromM).sizeM = s.sizeM := rfl

@[simp] theorem State.returnFromM_sizeN (s : State) :
    (s.returnFromM).sizeN = s.sizeN := rfl

@[simp] theorem State.returnFromM_sizeK (s : State) :
    (s.returnFromM).sizeK = s.sizeK := rfl

@[simp] theorem State.returnFromM_fflags (s : State) :
    (s.returnFromM).fflags = s.fflags := rfl

@[simp] theorem State.returnFromM_frm (s : State) :
    (s.returnFromM).frm = s.frm := rfl

@[simp] theorem State.returnFromM_bf16 (s : State) :
    (s.returnFromM).bf16 = s.bf16 := rfl

@[simp] theorem State.returnFromM_priv (s : State) :
    (s.returnFromM).priv = s.mstatus.mpp := rfl

@[simp] theorem State.returnFromM_mstatus (s : State) :
    (s.returnFromM).mstatus = { s.mstatus with
        mie := s.mstatus.mpie, mpie := true, mpp := .u
        mprv := s.mstatus.mprv && s.mstatus.mpp == .m } := rfl

@[simp] theorem State.returnFromM_mepc (s : State) :
    (s.returnFromM).mepc = s.mepc := rfl

@[simp] theorem State.returnFromM_mcause (s : State) :
    (s.returnFromM).mcause = s.mcause := rfl

@[simp] theorem State.returnFromM_mtval (s : State) :
    (s.returnFromM).mtval = s.mtval := rfl

@[simp] theorem State.returnFromM_mtvec (s : State) :
    (s.returnFromM).mtvec = s.mtvec := rfl

@[simp] theorem State.returnFromM_medeleg (s : State) :
    (s.returnFromM).medeleg = s.medeleg := rfl

@[simp] theorem State.returnFromM_mideleg (s : State) :
    (s.returnFromM).mideleg = s.mideleg := rfl

@[simp] theorem State.returnFromM_sepc (s : State) :
    (s.returnFromM).sepc = s.sepc := rfl

@[simp] theorem State.returnFromM_scause (s : State) :
    (s.returnFromM).scause = s.scause := rfl

@[simp] theorem State.returnFromM_stval (s : State) :
    (s.returnFromM).stval = s.stval := rfl

@[simp] theorem State.returnFromM_stvec (s : State) :
    (s.returnFromM).stvec = s.stvec := rfl

@[simp] theorem State.returnFromM_mem (s : State) :
    (s.returnFromM).mem = s.mem := rfl

@[simp] theorem State.returnFromM_stale (s : State) :
    (s.returnFromM).stale = s.stale := rfl

@[simp] theorem State.returnFromM_instret (s : State) :
    (s.returnFromM).instret = s.instret := rfl

@[simp] theorem State.returnFromM_draws (s : State) :
    (s.returnFromM).draws = s.draws := rfl

/-! ### `State.returnFromS` -/

@[simp] theorem State.returnFromS_cfg (s : State) :
    (s.returnFromS).cfg = s.cfg := rfl

@[simp] theorem State.returnFromS_pc (s : State) :
    (s.returnFromS).pc = s.sepc := rfl

@[simp] theorem State.returnFromS_x (s : State) :
    (s.returnFromS).x = s.x := rfl

@[simp] theorem State.returnFromS_m (s : State) :
    (s.returnFromS).m = s.m := rfl

@[simp] theorem State.returnFromS_xmrstart (s : State) :
    (s.returnFromS).xmrstart = s.xmrstart := rfl

@[simp] theorem State.returnFromS_xmxrm (s : State) :
    (s.returnFromS).xmxrm = s.xmxrm := rfl

@[simp] theorem State.returnFromS_xmxsat (s : State) :
    (s.returnFromS).xmxsat = s.xmxsat := rfl

@[simp] theorem State.returnFromS_sizeM (s : State) :
    (s.returnFromS).sizeM = s.sizeM := rfl

@[simp] theorem State.returnFromS_sizeN (s : State) :
    (s.returnFromS).sizeN = s.sizeN := rfl

@[simp] theorem State.returnFromS_sizeK (s : State) :
    (s.returnFromS).sizeK = s.sizeK := rfl

@[simp] theorem State.returnFromS_fflags (s : State) :
    (s.returnFromS).fflags = s.fflags := rfl

@[simp] theorem State.returnFromS_frm (s : State) :
    (s.returnFromS).frm = s.frm := rfl

@[simp] theorem State.returnFromS_bf16 (s : State) :
    (s.returnFromS).bf16 = s.bf16 := rfl

@[simp] theorem State.returnFromS_priv (s : State) :
    (s.returnFromS).priv = (if s.mstatus.spp then .s else .u) := rfl

@[simp] theorem State.returnFromS_mstatus (s : State) :
    (s.returnFromS).mstatus = { s.mstatus with sie := s.mstatus.spie, spie := true, spp := false, mprv := false } := rfl

@[simp] theorem State.returnFromS_mepc (s : State) :
    (s.returnFromS).mepc = s.mepc := rfl

@[simp] theorem State.returnFromS_mcause (s : State) :
    (s.returnFromS).mcause = s.mcause := rfl

@[simp] theorem State.returnFromS_mtval (s : State) :
    (s.returnFromS).mtval = s.mtval := rfl

@[simp] theorem State.returnFromS_mtvec (s : State) :
    (s.returnFromS).mtvec = s.mtvec := rfl

@[simp] theorem State.returnFromS_medeleg (s : State) :
    (s.returnFromS).medeleg = s.medeleg := rfl

@[simp] theorem State.returnFromS_mideleg (s : State) :
    (s.returnFromS).mideleg = s.mideleg := rfl

@[simp] theorem State.returnFromS_sepc (s : State) :
    (s.returnFromS).sepc = s.sepc := rfl

@[simp] theorem State.returnFromS_scause (s : State) :
    (s.returnFromS).scause = s.scause := rfl

@[simp] theorem State.returnFromS_stval (s : State) :
    (s.returnFromS).stval = s.stval := rfl

@[simp] theorem State.returnFromS_stvec (s : State) :
    (s.returnFromS).stvec = s.stvec := rfl

@[simp] theorem State.returnFromS_mem (s : State) :
    (s.returnFromS).mem = s.mem := rfl

@[simp] theorem State.returnFromS_stale (s : State) :
    (s.returnFromS).stale = s.stale := rfl

@[simp] theorem State.returnFromS_instret (s : State) :
    (s.returnFromS).instret = s.instret := rfl

@[simp] theorem State.returnFromS_draws (s : State) :
    (s.returnFromS).draws = s.draws := rfl

/-! ### `State.setX`, `State.setGroup` and `State.takeTrap` -/

@[simp] theorem State.setX_cfg (s : State) (i : XIdx) (v : Word) :
    (s.setX i v).cfg = s.cfg := by unfold State.setX; split <;> rfl

@[simp] theorem State.setX_pc (s : State) (i : XIdx) (v : Word) :
    (s.setX i v).pc = s.pc := by unfold State.setX; split <;> rfl

@[simp] theorem State.setX_m (s : State) (i : XIdx) (v : Word) :
    (s.setX i v).m = s.m := by unfold State.setX; split <;> rfl

@[simp] theorem State.setX_xmrstart (s : State) (i : XIdx) (v : Word) :
    (s.setX i v).xmrstart = s.xmrstart := by unfold State.setX; split <;> rfl

@[simp] theorem State.setX_xmxrm (s : State) (i : XIdx) (v : Word) :
    (s.setX i v).xmxrm = s.xmxrm := by unfold State.setX; split <;> rfl

@[simp] theorem State.setX_xmxsat (s : State) (i : XIdx) (v : Word) :
    (s.setX i v).xmxsat = s.xmxsat := by unfold State.setX; split <;> rfl

@[simp] theorem State.setX_sizeM (s : State) (i : XIdx) (v : Word) :
    (s.setX i v).sizeM = s.sizeM := by unfold State.setX; split <;> rfl

@[simp] theorem State.setX_sizeN (s : State) (i : XIdx) (v : Word) :
    (s.setX i v).sizeN = s.sizeN := by unfold State.setX; split <;> rfl

@[simp] theorem State.setX_sizeK (s : State) (i : XIdx) (v : Word) :
    (s.setX i v).sizeK = s.sizeK := by unfold State.setX; split <;> rfl

@[simp] theorem State.setX_fflags (s : State) (i : XIdx) (v : Word) :
    (s.setX i v).fflags = s.fflags := by unfold State.setX; split <;> rfl

@[simp] theorem State.setX_frm (s : State) (i : XIdx) (v : Word) :
    (s.setX i v).frm = s.frm := by unfold State.setX; split <;> rfl

@[simp] theorem State.setX_bf16 (s : State) (i : XIdx) (v : Word) :
    (s.setX i v).bf16 = s.bf16 := by unfold State.setX; split <;> rfl

@[simp] theorem State.setX_priv (s : State) (i : XIdx) (v : Word) :
    (s.setX i v).priv = s.priv := by unfold State.setX; split <;> rfl

@[simp] theorem State.setX_mstatus (s : State) (i : XIdx) (v : Word) :
    (s.setX i v).mstatus = s.mstatus := by unfold State.setX; split <;> rfl

@[simp] theorem State.setX_mepc (s : State) (i : XIdx) (v : Word) :
    (s.setX i v).mepc = s.mepc := by unfold State.setX; split <;> rfl

@[simp] theorem State.setX_mcause (s : State) (i : XIdx) (v : Word) :
    (s.setX i v).mcause = s.mcause := by unfold State.setX; split <;> rfl

@[simp] theorem State.setX_mtval (s : State) (i : XIdx) (v : Word) :
    (s.setX i v).mtval = s.mtval := by unfold State.setX; split <;> rfl

@[simp] theorem State.setX_mtvec (s : State) (i : XIdx) (v : Word) :
    (s.setX i v).mtvec = s.mtvec := by unfold State.setX; split <;> rfl

@[simp] theorem State.setX_medeleg (s : State) (i : XIdx) (v : Word) :
    (s.setX i v).medeleg = s.medeleg := by unfold State.setX; split <;> rfl

@[simp] theorem State.setX_mideleg (s : State) (i : XIdx) (v : Word) :
    (s.setX i v).mideleg = s.mideleg := by unfold State.setX; split <;> rfl

@[simp] theorem State.setX_sepc (s : State) (i : XIdx) (v : Word) :
    (s.setX i v).sepc = s.sepc := by unfold State.setX; split <;> rfl

@[simp] theorem State.setX_scause (s : State) (i : XIdx) (v : Word) :
    (s.setX i v).scause = s.scause := by unfold State.setX; split <;> rfl

@[simp] theorem State.setX_stval (s : State) (i : XIdx) (v : Word) :
    (s.setX i v).stval = s.stval := by unfold State.setX; split <;> rfl

@[simp] theorem State.setX_stvec (s : State) (i : XIdx) (v : Word) :
    (s.setX i v).stvec = s.stvec := by unfold State.setX; split <;> rfl

@[simp] theorem State.setX_mem (s : State) (i : XIdx) (v : Word) :
    (s.setX i v).mem = s.mem := by unfold State.setX; split <;> rfl

@[simp] theorem State.setX_stale (s : State) (i : XIdx) (v : Word) :
    (s.setX i v).stale = s.stale := by unfold State.setX; split <;> rfl

@[simp] theorem State.setX_instret (s : State) (i : XIdx) (v : Word) :
    (s.setX i v).instret = s.instret := by unfold State.setX; split <;> rfl

@[simp] theorem State.setX_draws (s : State) (i : XIdx) (v : Word) :
    (s.setX i v).draws = s.draws := by unfold State.setX; split <;> rfl

@[simp] theorem State.setGroup_cfg (s : State) (r : MIdx) (l : List MReg) :
    (s.setGroup r l).cfg = s.cfg := by
  induction l generalizing s r with
  | nil => rfl
  | cons v l ih => exact ih (s.setM r v) (r + 1#3)

@[simp] theorem State.setGroup_pc (s : State) (r : MIdx) (l : List MReg) :
    (s.setGroup r l).pc = s.pc := by
  induction l generalizing s r with
  | nil => rfl
  | cons v l ih => exact ih (s.setM r v) (r + 1#3)

@[simp] theorem State.setGroup_x (s : State) (r : MIdx) (l : List MReg) :
    (s.setGroup r l).x = s.x := by
  induction l generalizing s r with
  | nil => rfl
  | cons v l ih => exact ih (s.setM r v) (r + 1#3)

@[simp] theorem State.setGroup_xmrstart (s : State) (r : MIdx) (l : List MReg) :
    (s.setGroup r l).xmrstart = s.xmrstart := by
  induction l generalizing s r with
  | nil => rfl
  | cons v l ih => exact ih (s.setM r v) (r + 1#3)

@[simp] theorem State.setGroup_xmxrm (s : State) (r : MIdx) (l : List MReg) :
    (s.setGroup r l).xmxrm = s.xmxrm := by
  induction l generalizing s r with
  | nil => rfl
  | cons v l ih => exact ih (s.setM r v) (r + 1#3)

@[simp] theorem State.setGroup_xmxsat (s : State) (r : MIdx) (l : List MReg) :
    (s.setGroup r l).xmxsat = s.xmxsat := by
  induction l generalizing s r with
  | nil => rfl
  | cons v l ih => exact ih (s.setM r v) (r + 1#3)

@[simp] theorem State.setGroup_sizeM (s : State) (r : MIdx) (l : List MReg) :
    (s.setGroup r l).sizeM = s.sizeM := by
  induction l generalizing s r with
  | nil => rfl
  | cons v l ih => exact ih (s.setM r v) (r + 1#3)

@[simp] theorem State.setGroup_sizeN (s : State) (r : MIdx) (l : List MReg) :
    (s.setGroup r l).sizeN = s.sizeN := by
  induction l generalizing s r with
  | nil => rfl
  | cons v l ih => exact ih (s.setM r v) (r + 1#3)

@[simp] theorem State.setGroup_sizeK (s : State) (r : MIdx) (l : List MReg) :
    (s.setGroup r l).sizeK = s.sizeK := by
  induction l generalizing s r with
  | nil => rfl
  | cons v l ih => exact ih (s.setM r v) (r + 1#3)

@[simp] theorem State.setGroup_fflags (s : State) (r : MIdx) (l : List MReg) :
    (s.setGroup r l).fflags = s.fflags := by
  induction l generalizing s r with
  | nil => rfl
  | cons v l ih => exact ih (s.setM r v) (r + 1#3)

@[simp] theorem State.setGroup_frm (s : State) (r : MIdx) (l : List MReg) :
    (s.setGroup r l).frm = s.frm := by
  induction l generalizing s r with
  | nil => rfl
  | cons v l ih => exact ih (s.setM r v) (r + 1#3)

@[simp] theorem State.setGroup_bf16 (s : State) (r : MIdx) (l : List MReg) :
    (s.setGroup r l).bf16 = s.bf16 := by
  induction l generalizing s r with
  | nil => rfl
  | cons v l ih => exact ih (s.setM r v) (r + 1#3)

@[simp] theorem State.setGroup_priv (s : State) (r : MIdx) (l : List MReg) :
    (s.setGroup r l).priv = s.priv := by
  induction l generalizing s r with
  | nil => rfl
  | cons v l ih => exact ih (s.setM r v) (r + 1#3)

@[simp] theorem State.setGroup_mstatus (s : State) (r : MIdx) (l : List MReg) :
    (s.setGroup r l).mstatus = s.mstatus := by
  induction l generalizing s r with
  | nil => rfl
  | cons v l ih => exact ih (s.setM r v) (r + 1#3)

@[simp] theorem State.setGroup_mepc (s : State) (r : MIdx) (l : List MReg) :
    (s.setGroup r l).mepc = s.mepc := by
  induction l generalizing s r with
  | nil => rfl
  | cons v l ih => exact ih (s.setM r v) (r + 1#3)

@[simp] theorem State.setGroup_mcause (s : State) (r : MIdx) (l : List MReg) :
    (s.setGroup r l).mcause = s.mcause := by
  induction l generalizing s r with
  | nil => rfl
  | cons v l ih => exact ih (s.setM r v) (r + 1#3)

@[simp] theorem State.setGroup_mtval (s : State) (r : MIdx) (l : List MReg) :
    (s.setGroup r l).mtval = s.mtval := by
  induction l generalizing s r with
  | nil => rfl
  | cons v l ih => exact ih (s.setM r v) (r + 1#3)

@[simp] theorem State.setGroup_mtvec (s : State) (r : MIdx) (l : List MReg) :
    (s.setGroup r l).mtvec = s.mtvec := by
  induction l generalizing s r with
  | nil => rfl
  | cons v l ih => exact ih (s.setM r v) (r + 1#3)

@[simp] theorem State.setGroup_medeleg (s : State) (r : MIdx) (l : List MReg) :
    (s.setGroup r l).medeleg = s.medeleg := by
  induction l generalizing s r with
  | nil => rfl
  | cons v l ih => exact ih (s.setM r v) (r + 1#3)

@[simp] theorem State.setGroup_mideleg (s : State) (r : MIdx) (l : List MReg) :
    (s.setGroup r l).mideleg = s.mideleg := by
  induction l generalizing s r with
  | nil => rfl
  | cons v l ih => exact ih (s.setM r v) (r + 1#3)

@[simp] theorem State.setGroup_sepc (s : State) (r : MIdx) (l : List MReg) :
    (s.setGroup r l).sepc = s.sepc := by
  induction l generalizing s r with
  | nil => rfl
  | cons v l ih => exact ih (s.setM r v) (r + 1#3)

@[simp] theorem State.setGroup_scause (s : State) (r : MIdx) (l : List MReg) :
    (s.setGroup r l).scause = s.scause := by
  induction l generalizing s r with
  | nil => rfl
  | cons v l ih => exact ih (s.setM r v) (r + 1#3)

@[simp] theorem State.setGroup_stval (s : State) (r : MIdx) (l : List MReg) :
    (s.setGroup r l).stval = s.stval := by
  induction l generalizing s r with
  | nil => rfl
  | cons v l ih => exact ih (s.setM r v) (r + 1#3)

@[simp] theorem State.setGroup_stvec (s : State) (r : MIdx) (l : List MReg) :
    (s.setGroup r l).stvec = s.stvec := by
  induction l generalizing s r with
  | nil => rfl
  | cons v l ih => exact ih (s.setM r v) (r + 1#3)

@[simp] theorem State.setGroup_mem (s : State) (r : MIdx) (l : List MReg) :
    (s.setGroup r l).mem = s.mem := by
  induction l generalizing s r with
  | nil => rfl
  | cons v l ih => exact ih (s.setM r v) (r + 1#3)

@[simp] theorem State.setGroup_stale (s : State) (r : MIdx) (l : List MReg) :
    (s.setGroup r l).stale = s.stale := by
  induction l generalizing s r with
  | nil => rfl
  | cons v l ih => exact ih (s.setM r v) (r + 1#3)

@[simp] theorem State.setGroup_instret (s : State) (r : MIdx) (l : List MReg) :
    (s.setGroup r l).instret = s.instret := by
  induction l generalizing s r with
  | nil => rfl
  | cons v l ih => exact ih (s.setM r v) (r + 1#3)

@[simp] theorem State.setGroup_draws (s : State) (r : MIdx) (l : List MReg) :
    (s.setGroup r l).draws = s.draws := by
  induction l generalizing s r with
  | nil => rfl
  | cons v l ih => exact ih (s.setM r v) (r + 1#3)

@[simp] theorem State.takeTrap_cfg (s : State) (b : Bool) (c : Nat) (v : Word) :
    (s.takeTrap b c v).cfg = s.cfg := by unfold State.takeTrap; split <;> rfl

@[simp] theorem State.takeTrap_x (s : State) (b : Bool) (c : Nat) (v : Word) :
    (s.takeTrap b c v).x = s.x := by unfold State.takeTrap; split <;> rfl

@[simp] theorem State.takeTrap_m (s : State) (b : Bool) (c : Nat) (v : Word) :
    (s.takeTrap b c v).m = s.m := by unfold State.takeTrap; split <;> rfl

@[simp] theorem State.takeTrap_xmrstart (s : State) (b : Bool) (c : Nat) (v : Word) :
    (s.takeTrap b c v).xmrstart = s.xmrstart := by unfold State.takeTrap; split <;> rfl

@[simp] theorem State.takeTrap_xmxrm (s : State) (b : Bool) (c : Nat) (v : Word) :
    (s.takeTrap b c v).xmxrm = s.xmxrm := by unfold State.takeTrap; split <;> rfl

@[simp] theorem State.takeTrap_xmxsat (s : State) (b : Bool) (c : Nat) (v : Word) :
    (s.takeTrap b c v).xmxsat = s.xmxsat := by unfold State.takeTrap; split <;> rfl

@[simp] theorem State.takeTrap_sizeM (s : State) (b : Bool) (c : Nat) (v : Word) :
    (s.takeTrap b c v).sizeM = s.sizeM := by unfold State.takeTrap; split <;> rfl

@[simp] theorem State.takeTrap_sizeN (s : State) (b : Bool) (c : Nat) (v : Word) :
    (s.takeTrap b c v).sizeN = s.sizeN := by unfold State.takeTrap; split <;> rfl

@[simp] theorem State.takeTrap_sizeK (s : State) (b : Bool) (c : Nat) (v : Word) :
    (s.takeTrap b c v).sizeK = s.sizeK := by unfold State.takeTrap; split <;> rfl

@[simp] theorem State.takeTrap_fflags (s : State) (b : Bool) (c : Nat) (v : Word) :
    (s.takeTrap b c v).fflags = s.fflags := by unfold State.takeTrap; split <;> rfl

@[simp] theorem State.takeTrap_frm (s : State) (b : Bool) (c : Nat) (v : Word) :
    (s.takeTrap b c v).frm = s.frm := by unfold State.takeTrap; split <;> rfl

@[simp] theorem State.takeTrap_bf16 (s : State) (b : Bool) (c : Nat) (v : Word) :
    (s.takeTrap b c v).bf16 = s.bf16 := by unfold State.takeTrap; split <;> rfl

@[simp] theorem State.takeTrap_mtvec (s : State) (b : Bool) (c : Nat) (v : Word) :
    (s.takeTrap b c v).mtvec = s.mtvec := by unfold State.takeTrap; split <;> rfl

@[simp] theorem State.takeTrap_medeleg (s : State) (b : Bool) (c : Nat) (v : Word) :
    (s.takeTrap b c v).medeleg = s.medeleg := by unfold State.takeTrap; split <;> rfl

@[simp] theorem State.takeTrap_mideleg (s : State) (b : Bool) (c : Nat) (v : Word) :
    (s.takeTrap b c v).mideleg = s.mideleg := by unfold State.takeTrap; split <;> rfl

@[simp] theorem State.takeTrap_stvec (s : State) (b : Bool) (c : Nat) (v : Word) :
    (s.takeTrap b c v).stvec = s.stvec := by unfold State.takeTrap; split <;> rfl

@[simp] theorem State.takeTrap_mem (s : State) (b : Bool) (c : Nat) (v : Word) :
    (s.takeTrap b c v).mem = s.mem := by unfold State.takeTrap; split <;> rfl

@[simp] theorem State.takeTrap_stale (s : State) (b : Bool) (c : Nat) (v : Word) :
    (s.takeTrap b c v).stale = s.stale := by unfold State.takeTrap; split <;> rfl

@[simp] theorem State.takeTrap_instret (s : State) (b : Bool) (c : Nat) (v : Word) :
    (s.takeTrap b c v).instret = s.instret := by unfold State.takeTrap; split <;> rfl

@[simp] theorem State.takeTrap_draws (s : State) (b : Bool) (c : Nat) (v : Word) :
    (s.takeTrap b c v).draws = s.draws := by unfold State.takeTrap; split <;> rfl

end Sys2Proof.Machine
end

