-- ==== Sys2Proof/Laws/Ops.lean ====
section
/-! SUPPORT. What the shared operations over registers, the checks and the trap entry can do, said once
for each. -/

namespace Sys2Proof.Machine

/-! ### Checks -/

/-- No check fires exactly if every one is off. -/
theorem firstStop_eq_none {l : List (Bool × Stop)} :
    firstStop l = none ↔ ∀ c ∈ l, c.1 = false := by
  induction l with
  | nil => simp [firstStop]
  | cons c l ih =>
    obtain ⟨hit, k⟩ := c
    cases hit <;> simp [firstStop, ih]

/-- With no check firing the instruction goes on. -/
theorem guard_of_pass (s : State) (word : BitVec 32) {l : List (Bool × Stop)}
    (go : Host.Outcome State Fault Refusal) (h : ∀ c ∈ l, c.1 = false) :
    s.guard word l go = go := by
  simp [State.guard, firstStop_eq_none.2 h]

/-- A stop is IllegalInstruction or a refusal. -/
theorem stop_cases (s : State) (word : BitVec 32) (k : Stop) :
    s.stop word k = .next (s.illegal word) ∨ ∃ why, s.stop word k = .refused (.reserved why) := by
  cases k with
  | illegal => exact .inl rfl
  | reserved why =>
    cases h : s.cfg.reservedPolicy
    · exact .inr ⟨why, by simp [State.stop, h]⟩
    · exact .inl (by simp [State.stop, h])

/-- A guarded instruction goes on, takes IllegalInstruction, or is refused. -/
theorem guard_cases (s : State) (word : BitVec 32) (l : List (Bool × Stop))
    (go : Host.Outcome State Fault Refusal) :
    (s.guard word l go = go ∧ ∀ c ∈ l, c.1 = false) ∨ s.guard word l go = .next (s.illegal word) ∨
      ∃ why, s.guard word l go = .refused (.reserved why) := by
  unfold State.guard
  cases h : firstStop l with
  | none => exact .inl ⟨rfl, firstStop_eq_none.1 h⟩
  | some k => exact .inr (stop_cases s word k)

/-- If a guarded instruction answers a next state, that is its own or IllegalInstruction's. -/
theorem guard_eq_next {s t : State} {word : BitVec 32} {l : List (Bool × Stop)}
    {go : Host.Outcome State Fault Refusal} (h : s.guard word l go = .next t) :
    (go = .next t ∧ ∀ c ∈ l, c.1 = false) ∨ t = s.illegal word := by
  rcases guard_cases s word l go with ⟨hg, hp⟩ | hg | ⟨why, hg⟩
  · exact .inl ⟨hg ▸ h, hp⟩
  · rw [hg] at h; injection h with h; exact .inr h.symm
  · rw [hg] at h; cases h

/-! ### Matrix registers -/

/-- The register that was written. -/
@[simp] theorem setM_get_same (s : State) (r : MIdx) (v : MReg) :
    (s.setM r v).m[r.toNat]'r.isLt = v := by simp

/-- A register that was not written. -/
theorem setM_get_of_ne (s : State) {r q : MIdx} (v : MReg) (h : q ≠ r) :
    (s.setM r v).m[q.toNat]'q.isLt = s.m[q.toNat]'q.isLt := by
  have : r.toNat ≠ q.toNat := fun e => h (BitVec.eq_of_toNat_eq e.symm)
  simp [this]

/-- A row of the register that was written. -/
theorem mrow_setM_same (s : State) (r : MIdx) (v : MReg) (i : Nat) :
    (s.setM r v).mrow r i = truncRow s.cfg.mlen (v.getD i 0) := by
  simp [State.mrow]

/-- A row depends on the configuration and the register alone. -/
theorem mrow_congr {s t : State} (hc : t.cfg = s.cfg) {r q : MIdx}
    (hm : t.m[r.toNat]'r.isLt = s.m[q.toNat]'q.isLt) (i : Nat) : t.mrow r i = s.mrow q i := by
  simp only [State.mrow, hc, hm]

/-- An element depends on the configuration and the register alone. -/
theorem el_congr {s t : State} (hc : t.cfg = s.cfg) {r q : MIdx}
    (hm : t.m[r.toNat]'r.isLt = s.m[q.toNat]'q.isLt) (w i j : Nat) :
    t.el w r i j = s.el w q i j := by
  simp only [State.el, mrow_congr hc hm]

/-- Registers outside a written group are kept. -/
theorem setGroup_get_of_notMem (s : State) {r q : MIdx} {l : List MReg}
    (h : q ∉ regGroup r l.length) : (s.setGroup r l).m[q.toNat]'q.isLt = s.m[q.toNat]'q.isLt := by
  induction l generalizing s r with
  | nil => rfl
  | cons v l ih =>
    have hq : q ≠ r := fun e => h (by simp [regGroup]; exact ⟨0, by simp [e]⟩)
    rw [State.setGroup, ih, setM_get_of_ne s v hq]
    intro hm
    apply h
    simp only [regGroup, List.mem_map, List.mem_range, List.length_cons] at hm ⊢
    obtain ⟨k, hk, e⟩ := hm
    exact ⟨k + 1, by omega, by rw [← e, BitVec.add_assoc]; congr 1; simp [BitVec.ofNat_add, BitVec.add_comm]⟩

/-- Register `k` of a written group. -/
theorem setGroup_get (s : State) (r : MIdx) {l : List MReg} {k : Nat} (hk : k < l.length)
    (hl : l.length ≤ 8) :
    (s.setGroup r l).m[(r + BitVec.ofNat 3 k).toNat]'(r + BitVec.ofNat 3 k).isLt = l[k] := by
  induction l generalizing s r k with
  | nil => simp at hk
  | cons v l ih =>
    simp only [List.length_cons] at hk hl
    rw [State.setGroup]
    cases k with
    | zero =>
      have : (r + 0#3) ∉ regGroup (r + 1#3) l.length := by
        simp only [regGroup, List.mem_map, List.mem_range]
        rintro ⟨k, hk', e⟩
        have := congrArg BitVec.toNat e
        have hr := r.isLt
        simp only [BitVec.toNat_add, BitVec.toNat_ofNat] at this
        omega
      have h := setGroup_get_of_notMem (s.setM r v) this
      simp only [BitVec.add_zero] at h ⊢
      rw [h]
      simp
    | succ k =>
      have e : r + BitVec.ofNat 3 (k + 1) = r + 1#3 + BitVec.ofNat 3 k := by
        rw [BitVec.add_assoc]; congr 1; simp [BitVec.ofNat_add, BitVec.add_comm]
      simp only [e, List.getElem_cons_succ]
      exact ih (s.setM r v) (r + 1#3) (by omega) (by omega)

/-- A register of a written group comes from the list, or is kept. -/
theorem setGroup_get_cases (s : State) (r q : MIdx) (l : List MReg) :
    (s.setGroup r l).m[q.toNat]'q.isLt = s.m[q.toNat]'q.isLt ∨
      (s.setGroup r l).m[q.toNat]'q.isLt ∈ l := by
  induction l generalizing s r with
  | nil => exact .inl rfl
  | cons v l ih =>
    rcases ih (s.setM r v) (r + 1#3) with h | h
    · by_cases e : q = r
      · subst e
        exact .inr (List.mem_cons.2 (.inl (h.trans (setM_get_same s q v))))
      · exact .inl (h.trans (setM_get_of_ne s v e))
    · exact .inr (List.mem_cons_of_mem _ h)

/-! ### Integer registers -/

/-- `x0` reads zero. -/
@[simp] theorem xval_zero (s : State) : s.xval 0 = 0 := rfl

/-- The register that was written. -/
theorem xval_setX_same (s : State) {i : XIdx} (v : Word) (h : i ≠ 0) :
    (s.setX i v).xval i = wrapX s.cfg.xlen v := by
  have h' : i ≠ 0#5 := h
  simp [State.xval, State.setX, h']

/-- A register that was not written. -/
theorem xval_setX_of_ne (s : State) {i k : XIdx} (v : Word) (h : k ≠ i) :
    (s.setX i v).xval k = s.xval k := by
  have : i.toNat ≠ k.toNat := fun e => h (BitVec.eq_of_toNat_eq e.symm)
  by_cases hi : i = 0#5 <;> simp [State.xval, State.setX, hi, this]

/-! ### Traps -/

/-- Taking an exception: what is recorded and where the machine goes. -/
theorem trapTaken_takeException (s : State) (e : Exc) (tval : Word) :
    TrapTaken s (s.takeException e tval) e tval := by
  have hc : (causeWord s.cfg.xlen false e.code).toNat = e.code := by
    cases e <;> simp [causeWord, Exc.code]
  unfold TrapTaken State.takeException State.takeTrap
  split <;> simp_all [trapPc, State.trapToS, State.trapToM]

/-- Taking an exception changes no matrix register, no CSR of the unit and no other register but those
that record the trap. -/
theorem takeException_kept (s : State) (e : Exc) (tval : Word) :
    let t := s.takeException e tval
    t.cfg = s.cfg ∧ t.x = s.x ∧ t.m = s.m ∧ t.xmrstart = s.xmrstart ∧ t.xmxrm = s.xmxrm ∧
      t.xmxsat = s.xmxsat ∧ SizesKept s t ∧ t.fflags = s.fflags ∧ t.frm = s.frm ∧ t.bf16 = s.bf16 ∧
      t.mstatus.ms = s.mstatus.ms ∧ t.mstatus.fs = s.mstatus.fs ∧ t.mem = s.mem ∧
      t.stale = s.stale ∧ t.draws = s.draws ∧ t.instret = s.instret := by
  refine ⟨?_, ?_, ?_, ?_, ?_, ?_, ⟨?_, ?_, ?_⟩, ?_, ?_, ?_, ?_, ?_, ?_, ?_, ?_, ?_⟩ <;>
    simp only [State.takeException, State.takeTrap] <;> split <;> rfl

/-- Whether an exception was taken as it should be depends on the registers of the trap alone. -/
theorem TrapTaken.of_eq {s u t : State} {e : Exc} {tval : Word} (h : TrapTaken u t e tval)
    (hpc : u.pc = s.pc) (hpriv : u.priv = s.priv) (hmie : u.mstatus.mie = s.mstatus.mie)
    (hsie : u.mstatus.sie = s.mstatus.sie) (hd : u.medeleg = s.medeleg)
    (hmt : u.mtvec = s.mtvec) (hst : u.stvec = s.stvec)
    (hm : u.mepc = s.mepc ∧ u.mcause = s.mcause ∧ u.mtval = s.mtval)
    (hs : u.sepc = s.sepc ∧ u.scause = s.scause ∧ u.stval = s.stval) : TrapTaken s t e tval := by
  have hdel : u.delegated false e.code = s.delegated false e.code := by
    simp [State.delegated, hpriv, hd]
  unfold TrapTaken at *
  rw [hdel] at h
  split at h
  · rename_i hc
    rw [if_pos hc]
    rwa [hpc, hpriv, hsie, hst, hm.1, hm.2.1, hm.2.2] at h
  · rename_i hc
    rw [if_neg hc]
    rwa [hpc, hpriv, hmie, hmt, hs.1, hs.2.1, hs.2.2] at h

/-! ### The epilogue -/

/-- The epilogue moves `pc` on, clears `xmrstart` and makes `MS` Dirty. -/
theorem finished_finish (s : State) : Finished s s.finish := ⟨rfl, rfl, rfl, rfl⟩

/-- Writing a group of registers and finishing rewrites the group and nothing else. -/
theorem rewrites_setGroup (s : State) (md : MIdx) (l : List MReg) :
    Rewrites s (s.setGroup md l).finish (regGroup md l.length) := by
  refine ⟨⟨?_, by simp, rfl, rfl⟩, ?_, ?_, ?_, fun r hr => setGroup_get_of_notMem s hr⟩
  · simp [State.finish, State.nextPc, State.advance, State.dirtyMS]
  · constructor <;> simp [State.finish]
  · simp [SizesKept]
  · constructor <;> simp [State.finish, State.byteAt]

/-- A group of one register. -/
@[simp] theorem regGroup_one (r : MIdx) : regGroup r 1 = [r] := by simp [regGroup]

/-- A group of two registers. -/
@[simp] theorem regGroup_two (r : MIdx) : regGroup r 2 = [r, r + 1#3] := by
  simp [regGroup, List.range_succ]

/-- Writing one register and finishing rewrites that register and nothing else. -/
theorem rewrites_setM (s : State) (md : MIdx) (v : MReg) : Rewrites s (s.setM md v).finish [md] := by
  have h := rewrites_setGroup s md [v]
  rwa [List.length_singleton, regGroup_one] at h

/-- A tiled register holds its function in the active shape and zero elsewhere. -/
theorem holds_of_tiled {s t : State} (hc : t.cfg = s.cfg) {md : MIdx} {nrows ncols w : Nat}
    (hw : 0 < w) {f : Nat → Nat → BitVec w}
    (h : t.m[md.toNat]'md.isLt = tiled s.cfg nrows ncols w f) : t.Holds w md nrows ncols f := by
  intro i j hi hj
  rw [hc] at hi hj
  simp only [State.el, State.mrow, h, hc]
  rw [elem_truncRow _ _ _ _ hj, elem_tiled _ _ _ hw _ hi hj]

/-- The checks of a pointwise instruction pass exactly where it executes. -/
theorem pwChecks_pass {s : State} {w bit : Nat} {b : Src2} (hr : s.ready) (hb : s.has bit)
    (hv : s.validPW w = true) (ho : b.rowOk s = true) : ∀ c ∈ s.pwChecks w bit b, c.1 = false := by
  simp only [State.pwChecks, List.mem_cons, List.not_mem_nil, or_false, forall_eq_or_imp, forall_eq]
  refine ⟨by simpa [State.offGate] using hr.1, ?_, by simpa [State.startGate] using hr.2,
    by simp [needs, ho], by simp [needs, hv]⟩
  unfold State.has at hb
  rw [State.featureGate, hb]
  rfl

/-! ### CSR instructions -/

/-- When a CSR instruction writes. -/
theorem csrWrites_iff {op : CsrOp} {src : XIdx} :
    csrWrites op src = true ↔ op = .write ∨ src ≠ 0 := by
  simp [csrWrites]

/-- A CSR instruction on a register of spec/ passes its checks, writes if it writes, and gives `x[rd]` the
old value. -/
theorem execHost_csr {s : State} {r : Csr} {addr : BitVec 12} (h : csrAt s.cfg addr = some r)
    (word : BitVec 32) (op : CsrOp) (imm : Bool) (rd src : XIdx) :
    execHost (.csr op imm rd addr src) word s =
      let value := csrMade op (s.csrRead r) (s.csrArg imm src)
      s.guard word (s.csrChecks r (csrWrites op src) value)
        (.next (((if csrWrites op src then s.csrWrite r value else s.csrAfterRead r).setX rd
          (s.csrRead r)).advance)) := by
  simp only [execHost, State.csrInstr, h]
  cases op <;> rfl

end Sys2Proof.Machine
end

