-- ==== Sys2Proof/Laws/LoadStore.lean ====
section
/-! SUPPORT. What the accesses of loads and stores can do: when nothing goes wrong, what the written
bytes hold, and what a row trap changes. -/

namespace Sys2Proof.Machine

/-! ### Exceptions of a transfer -/

/-- An element whose bytes all reach memory, aligned or split, raises nothing. -/
theorem elem_clean {s : State} {store : Bool} {t : Transfer} {q k : Nat}
    (ha : t.addr q (k * t.esize) % t.esize = 0 ∨ s.cfg.misalignedPolicy = .split)
    (hr : ∀ b < t.esize, s.reach store (t.addr q (k * t.esize + b)) = .ok) :
    s.elemReserved store t q k = none ∧ s.elemFaults store t q k = [] := by
  have hp : s.performs t q k = true := by
    rcases ha with h | h <;> simp [State.performs, Transfer.aligned, h]
  have hn : ∀ r : Reach, r ≠ .ok →
      ((t.elemBytes q k).any fun a => s.reach store a == r) = false := by
    intro r hne
    simp only [Transfer.elemBytes, List.any_map, List.any_eq_false, List.mem_range,
      Function.comp_apply, beq_iff_eq]
    intro b hb
    rw [hr b hb]
    exact fun e => hne e.symm
  simp [State.elemReserved, State.elemFaults, hp, hn]

/-- A transfer whose accesses all reach memory goes through. -/
theorem trouble_of_reachable {s : State} {store : Bool} {t : Transfer}
    (h : s.reachable store t) : s.trouble store t = none := by
  simp only [State.trouble, List.findSome?_eq_none_iff, List.mem_range'_1]
  intro q hq
  have hc : ∀ k ∈ t.elems, s.elemReserved store t q k = none ∧ s.elemFaults store t q k = [] := by
    intro k hk
    obtain ⟨ha, hr⟩ := h q k hq.1 (by omega) (by simpa [Transfer.elems] using hk)
    exact elem_clean ha hr
  have h1 : t.elems.findSome? (s.elemReserved store t q) = none := by
    rw [List.findSome?_eq_none_iff]; exact fun k hk => (hc k hk).1
  have h2 : t.elems.flatMap (s.elemFaults store t q) = [] := by
    rw [List.flatMap_eq_nil_iff]; exact fun k hk => (hc k hk).2
  simp [State.rowTrouble, h1, h2]

/-- What `trouble` reports: a row at or above `xmrstart`, with everything clean in the rows before
it. -/
theorem trouble_faults {s : State} {store : Bool} {t : Transfer} {row : Nat}
    {reports : List (Exc × Nat)} (h : s.trouble store t = some (.faults row reports)) :
    s.xmrstart.toNat ≤ row ∧ row < t.rows ∧
      reports = t.elems.flatMap (s.elemFaults store t row) ∧ reports ≠ [] ∧
      (∀ k ∈ t.elems, s.elemReserved store t row k = none) ∧
      ∀ q, s.xmrstart.toNat ≤ q → q < row → s.rowTrouble store t q = none := by
  obtain ⟨l₁, q, l₂, hl, hq, hb⟩ := List.findSome?_eq_some_iff.1 h
  have hrow : q = row ∧ reports = t.elems.flatMap (s.elemFaults store t q) ∧ reports ≠ [] ∧
      ∀ k ∈ t.elems, s.elemReserved store t q k = none := by
    unfold State.rowTrouble at hq
    split at hq
    · simp at hq
    · rename_i hn
      split at hq
      · simp at hq
      · rename_i hf
        simp only [Option.some.injEq, Trouble.faults.injEq] at hq
        refine ⟨hq.1, by rw [hf]; exact hq.2.symm, by rw [← hq.2]; simp, ?_⟩
        rwa [List.findSome?_eq_none_iff] at hn
  obtain ⟨rfl, h1, h2, h3⟩ := hrow
  have hlen := congrArg List.length hl
  have hq' : l₁.length < t.rows - s.xmrstart.toNat := by simp at hlen; omega
  have hget := congrArg (fun l => l[l₁.length]?) hl
  simp [hq'] at hget
  refine ⟨by omega, by omega, h1, h2, h3, fun p hp hp' => hb p ?_⟩
  have hp1 : p - s.xmrstart.toNat < l₁.length := by omega
  have := congrArg (fun l => l[p - s.xmrstart.toNat]?) hl
  simp only [List.getElem?_append_left hp1] at this
  have hlt : p - s.xmrstart.toNat < t.rows - s.xmrstart.toNat := by omega
  simp [hlt] at this
  have e : s.xmrstart.toNat + (p - s.xmrstart.toNat) = p := by omega
  rw [e] at this
  exact List.mem_of_getElem? this.symm

/-- What an access that reaches memory says of the address map. -/
theorem reach_eq_ok {s : State} {store : Bool} {a : Nat} :
    s.reach store a = .ok ↔ (if store then s.writeReach a else s.readReach a) = .ok ∧
      s.readReach a ≠ .sideEffects ∧ s.writeReach a ≠ .sideEffects := by
  unfold State.reach
  cases store <;> cases s.readReach a <;> cases s.writeReach a <;> decide

/-- A trap value of an element is its address, or a byte address of one that straddles a page. -/
theorem mem_reported {t : Transfer} {q k v : Nat} (he : 0 < t.esize) (h : v ∈ t.reported q k) :
    ∃ b < t.esize, v = t.addr q (k * t.esize + b) ∧ (b = 0 ∨ t.straddles q k = true) := by
  unfold Transfer.reported at h
  split at h
  · rename_i hs
    obtain ⟨b, hb, rfl⟩ := List.mem_map.1 h
    exact ⟨b, List.mem_range.1 hb, rfl, .inr hs⟩
  · exact ⟨0, he, List.mem_singleton.1 h, .inl rfl⟩

/-- Every exception of an element has one of its trap values. -/
theorem mem_elemFaults {s : State} {store : Bool} {t : Transfer} {q k : Nat} {r : Exc × Nat}
    (h : r ∈ s.elemFaults store t q k) : r.2 ∈ t.reported q k := by
  have hm : ∀ e : Exc, r ∈ (t.reported q k).map (fun a => (e, a)) → r.2 ∈ t.reported q k := by
    intro e h
    obtain ⟨a, ha, rfl⟩ := List.mem_map.1 h
    exact ha
  simp only [State.elemFaults] at h
  split at h
  · rcases List.mem_append.1 h with h | h <;> split at h
    · exact hm _ h
    · cases h
    · exact hm _ h
    · cases h
  · exact hm _ h

/-- Under `MISALIGNED_POLICY = trap` a misaligned element raises the misaligned exception alone. -/
theorem elemFaults_of_misaligned {s : State} {store : Bool} {t : Transfer} {q k : Nat}
    (hp : s.cfg.misalignedPolicy = .trap) (ha : t.aligned q k = false) :
    s.elemFaults store t q k = (t.reported q k).map fun a =>
      (if store then Exc.storeMisaligned else .loadMisaligned, a) := by
  simp [State.elemFaults, State.performs, hp, ha]

/-- A row trap takes one of the reports. -/
theorem pickReport_mem (n : Nat) {l : List (Exc × Nat)} (h : l ≠ []) : pickReport n l ∈ l := by
  cases l with
  | nil => exact absurd rfl h
  | cons r rest =>
    simp only [pickReport]
    split
    · simp
    · have hlt : Config.freeChoice n % (rest.length + 1) < (r :: rest).length :=
        Nat.mod_lt _ (Nat.succ_pos _)
      rw [List.getD_eq_getElem _ _ hlt]
      exact List.getElem_mem hlt

/-- What a row trap changes: `xmrstart`, `MS`, the count of draws and the registers of the trap. -/
theorem rowTrap_kept (s : State) (row : Nat) (reports : List (Exc × Nat)) :
    let t := s.rowTrap row reports
    t.cfg = s.cfg ∧ t.x = s.x ∧ t.m = s.m ∧ t.xmrstart = BitVec.ofNat 64 row ∧ t.xmxrm = s.xmxrm ∧
      t.xmxsat = s.xmxsat ∧ SizesKept s t ∧ t.fflags = s.fflags ∧ t.frm = s.frm ∧ t.bf16 = s.bf16 ∧
      t.mstatus.ms = 3#2 ∧ t.mstatus.fs = s.mstatus.fs ∧ t.mem = s.mem ∧ t.stale = s.stale ∧
      t.instret = s.instret := by
  obtain ⟨h1, h2, h3, h4, h5, h6, h7, h8, h9, h10, h11, h12, h13, h14, -, h15⟩ :=
    takeException_kept
      (({ s with
          xmrstart := BitVec.ofNat 64 row
          draws := if reports.all (· == pickReport s.draws reports) then s.draws else s.draws + 1 }
        : State).dirtyMS)
      (pickReport s.draws reports).1 (BitVec.ofNat 64 (pickReport s.draws reports).2)
  exact ⟨h1, h2, h3, h4, h5, h6, h7, h8, h9, h10, h11, h12, h13, h14, h15⟩

/-! ### Stored bytes -/

/-- One value among equals. -/
theorem allSame_iff {l : List Byte} : allSame l = true ↔ ∀ a ∈ l, ∀ b ∈ l, a = b := by
  cases l with
  | nil => simp [allSame]
  | cons v l =>
    simp only [allSame, List.all_eq_true, beq_iff_eq, List.mem_cons, forall_eq_or_imp, true_and]
    constructor
    · intro h
      exact ⟨fun a ha => (h a ha).symm, fun a ha => ⟨h a ha, fun b hb => (h a ha).trans (h b hb).symm⟩⟩
    · intro h a ha
      exact (h.1 a ha).symm

/-- The chosen byte is one of the values. -/
theorem pickByte_mem (n : Nat) {l : List Byte} (h : l ≠ []) : pickByte n l ∈ l := by
  cases l with
  | nil => exact absurd rfl h
  | cons v rest =>
    simp only [pickByte]
    split
    · simp
    · have hlt : Config.freeChoice n % (rest.length + 1) < (v :: rest).length :=
        Nat.mod_lt _ (Nat.succ_pos _)
      rw [List.getD_eq_getElem _ _ hlt]
      exact List.getElem_mem hlt

/-- Among equal values the choice is no choice. -/
theorem pickByte_of_allSame (n : Nat) {l : List Byte} {v : Byte} (h : allSame l = true)
    (hv : v ∈ l) : pickByte n l = v :=
  allSame_iff.1 h _ (pickByte_mem n (List.ne_nil_of_mem hv)) _ hv

/-- There is always a value. -/
theorem byteOptions_ne_nil (old : Byte) (sure maybe : List Host.Cell) (a : Nat) :
    byteOptions old sure maybe a ≠ [] := by
  unfold byteOptions
  simp only
  split
  · simp
  · rename_i h
    intro e
    rw [List.append_eq_nil_iff] at e
    simp [e.1] at h

/-- Rising addresses are distinct. -/
theorem risingFrom_le {lo : Nat} {l : List Host.Cell} (h : risingFrom lo l = true) :
    ∀ w ∈ l, lo ≤ w.1 := by
  induction l generalizing lo with
  | nil => simp
  | cons c l ih =>
    simp only [risingFrom, Bool.and_eq_true, Nat.ble_eq] at h
    intro w hw
    rcases List.mem_cons.1 hw with rfl | hw
    · exact h.1
    · have := ih h.2 w hw; omega

/-- Of rising writes, one write reaches its address. -/
theorem rising_unique {lo : Nat} {l : List Host.Cell} (h : risingFrom lo l = true) {v w : Host.Cell}
    (hv : v ∈ l) (hw : w ∈ l) (e : v.1 = w.1) : v = w := by
  induction l generalizing lo with
  | nil => simp at hv
  | cons c l ih =>
    simp only [risingFrom, Bool.and_eq_true, Nat.ble_eq] at h
    have hc := risingFrom_le h.2
    rcases List.mem_cons.1 hv with rfl | hv <;> rcases List.mem_cons.1 hw with rfl | hw
    · rfl
    · have := hc w hw; omega
    · have := hc v (by assumption); omega
    · exact ih h.2 hv hw

/-- The values of a byte that is certainly written once. -/
theorem byteOptions_of_plain {sure maybe : List Host.Cell} (h : plainWrites sure maybe = true)
    (old : Byte) {w : Host.Cell} (hw : w ∈ sure) :
    maybe = [] ∧ ∀ v ∈ byteOptions old sure maybe w.1, v = w.2 := by
  simp only [plainWrites, Bool.and_eq_true, List.isEmpty_iff] at h
  refine ⟨h.1, ?_⟩
  intro v hv
  rw [byteOptions, h.1] at hv
  simp only [List.filter_nil, List.map_nil, List.append_nil] at hv
  split at hv
  · rename_i he
    simp only [List.isEmpty_iff, List.map_eq_nil_iff, List.filter_eq_nil_iff, beq_iff_eq] at he
    exact absurd rfl (he w hw)
  · simp only [List.mem_map, List.mem_filter, beq_iff_eq] at hv
    obtain ⟨c, ⟨hc, e⟩, rfl⟩ := hv
    rw [rising_unique h.2 hc hw e]

/-- The short cut of `settled` changes nothing: each byte ends up with one of its values, the same for
every write to its address. -/
theorem settled_of_plain (s : State) (sure maybe : List Host.Cell) :
    s.settled sure maybe = (sure ++ maybe).map fun w =>
      (w.1, pickByte (s.draws + w.1) (byteOptions (s.byteAt w.1) sure maybe w.1)) := by
  unfold State.settled
  split
  · rename_i h
    have hm : maybe = [] := by
      simp only [plainWrites, Bool.and_eq_true, List.isEmpty_iff] at h; exact h.1
    have : ∀ w ∈ sure,
        pickByte (s.draws + w.1) (byteOptions (s.byteAt w.1) sure maybe w.1) = w.2 := fun w hw =>
      (byteOptions_of_plain h _ hw).2 _ (pickByte_mem _ (byteOptions_ne_nil _ _ _ _))
    rw [hm] at this ⊢
    rw [List.append_nil]
    exact (List.map_id _).symm.trans (List.map_congr_left fun w hw => by simp [this w hw])
  · rfl

/-- The short cut of `openBytes` changes nothing. -/
theorem openBytes_of_plain (s : State) (sure maybe : List Host.Cell) :
    s.openBytes sure maybe =
      (sure ++ maybe).any fun w => !allSame (byteOptions (s.byteAt w.1) sure maybe w.1) := by
  unfold State.openBytes
  cases h : plainWrites sure maybe with
  | false => simp
  | true =>
    symm
    simp only [Bool.not_true, Bool.false_and, List.any_eq_false, Bool.not_eq_true']
    have hm : maybe = [] := by
      simp only [plainWrites, Bool.and_eq_true, List.isEmpty_iff] at h; exact h.1
    intro w hw
    rw [hm, List.append_nil] at hw
    have h2 := (byteOptions_of_plain h (s.byteAt w.1) hw).2
    simp only [Bool.not_eq_false]
    exact allSame_iff.2 fun a ha b hb => (h2 a ha).trans (h2 b hb).symm

/-- A byte that no write reaches is kept. -/
theorem byteAt_storeBytes_of_notMem (s : State) {sure maybe : List Host.Cell} {a : Nat}
    (h : ∀ w ∈ sure ++ maybe, w.1 ≠ a) : (s.storeBytes sure maybe).byteAt a = s.byteAt a := by
  simp only [State.byteAt, State.storeBytes]
  apply Memory.read_writeAll_of_notMem
  intro w hw
  rw [settled_of_plain] at hw
  obtain ⟨v, hv, rfl⟩ := List.mem_map.1 hw
  exact h v hv

/-- A byte that some write reaches holds one of the values it can hold. -/
theorem byteAt_storeBytes_of_mem {s : State} (hwf : s.mem.wf = true) {sure maybe : List Host.Cell}
    {a : Nat} (h : ∃ w ∈ sure ++ maybe, w.1 = a) :
    (s.storeBytes sure maybe).byteAt a ∈ byteOptions (s.byteAt a) sure maybe a := by
  have key : (s.storeBytes sure maybe).byteAt a =
      pickByte (s.draws + a) (byteOptions (s.byteAt a) sure maybe a) := by
    simp only [State.byteAt, State.storeBytes]
    apply Memory.read_writeAll_of_mem hwf
    · obtain ⟨w, hw, e⟩ := h
      rw [settled_of_plain]
      exact ⟨_, List.mem_map.2 ⟨w, hw, rfl⟩, e⟩
    · intro w hw e
      rw [settled_of_plain] at hw
      obtain ⟨v, hv, rfl⟩ := List.mem_map.1 hw
      simp only at e
      subst e
      rfl
  rw [key]
  exact pickByte_mem _ (byteOptions_ne_nil _ _ _ _)

/-- Memory stays canonical under a store. -/
theorem storeBytes_wf {s : State} (hwf : s.mem.wf = true) (sure maybe : List Host.Cell) :
    (s.storeBytes sure maybe).mem.wf = true := Memory.writeAll_wf hwf _

/-- Memory stays inside the address space if the written addresses lie inside. -/
theorem storeBytes_below {s : State} {n : Nat} (hb : s.mem.below n = true)
    {sure maybe : List Host.Cell} (h : ∀ w ∈ sure ++ maybe, w.1 < n) :
    (s.storeBytes sure maybe).mem.below n = true := by
  apply Memory.writeAll_below hb
  intro w hw
  rw [settled_of_plain] at hw
  obtain ⟨v, hv, rfl⟩ := List.mem_map.1 hw
  exact h v hv

/-- The cells of a range of rows. -/
theorem mem_cellsOf {f : Nat → List Host.Cell} {first last : Nat} {w : Host.Cell} :
    w ∈ State.cellsOf f first last ↔ ∃ q, first ≤ q ∧ q < last ∧ w ∈ f q := by
  simp only [State.cellsOf, List.mem_flatMap, List.mem_range'_1]
  constructor
  · rintro ⟨q, ⟨h1, h2⟩, h⟩
    exact ⟨q, h1, by omega, h⟩
  · rintro ⟨q, h1, h2, h⟩
    exact ⟨q, ⟨h1, by omega⟩, h⟩

/-- The cells that a row of a store writes. -/
theorem mem_rowCells {s : State} {t : Transfer} {ms3 : MIdx} {q : Nat} {w : Host.Cell} :
    w ∈ s.rowCells t ms3 q ↔
      ∃ c, c < t.rowBytes ∧ w = (t.addr q c, elem 8 (s.groupRow ms3 q) c) := by
  simp only [State.rowCells, List.mem_map, List.mem_range]
  constructor <;> rintro ⟨c, h, e⟩ <;> exact ⟨c, h, e.symm⟩

/-- The cells that a row of a trapping store may write are among those it writes. -/
theorem mem_rowMaybe {s : State} {t : Transfer} {ms3 : MIdx} {q : Nat} {w : Host.Cell}
    (h : w ∈ s.rowMaybe t ms3 q) :
    ∃ c, c < t.rowBytes ∧ w = (t.addr q c, elem 8 (s.groupRow ms3 q) c) := by
  simp only [State.rowMaybe, List.mem_map, List.mem_filter, List.mem_range] at h
  obtain ⟨c, ⟨hc, -⟩, e⟩ := h
  exact ⟨c, hc, e.symm⟩

/-- A value of a byte that is certainly written is one that is written there. -/
theorem mem_of_byteOptions {old v : Byte} {sure maybe : List Host.Cell} {a : Nat}
    (h : v ∈ byteOptions old sure maybe a) (hs : ∃ w ∈ sure, w.1 = a) : (a, v) ∈ sure ++ maybe := by
  unfold byteOptions at h
  dsimp only at h
  rw [List.mem_append] at h ⊢
  rcases h with h | h
  · split at h
    · rename_i he
      obtain ⟨w, hw, e⟩ := hs
      simp only [List.isEmpty_iff, List.map_eq_nil_iff, List.filter_eq_nil_iff, beq_iff_eq] at he
      exact absurd e (he w hw)
    · simp only [List.mem_map, List.mem_filter, beq_iff_eq] at h
      obtain ⟨w, ⟨hw, rfl⟩, rfl⟩ := h
      exact .inl hw
  · simp only [List.mem_map, List.mem_filter, beq_iff_eq] at h
    obtain ⟨w, ⟨hw, rfl⟩, rfl⟩ := h
    exact .inr hw

/-! ### Loaded rows -/

/-- `ROWS` and `MLENB`. -/
theorem Config.rows_bounds (c : Config) : 4 ≤ c.rows ∧ c.rows ≤ 16 ∧ 8 * c.mlenb = c.mlen.bits := by
  unfold Config.rows Config.mlenb
  cases c.mlen <;> simp [Mlen.bits]

/-- Row `q` of register `k` of a group. -/
theorem groupOf_row (s : State) {n k q : Nat} (f : Nat → Row) (hk : k < (s.groupOf n f).length)
    (hq : q < s.cfg.rows) :
    (s.groupOf n f)[k].getD q 0 = truncRow s.cfg.mlen (f (k * s.cfg.rows + q)) := by
  simp only [State.groupOf, List.getElem_map, List.getElem_range]
  exact getD_rowsOf _ _ hq

/-- Byte `b` of a row of a load's destination: kept below `xmrstart`, from memory inside the transfer,
zero elsewhere. -/
theorem byte_loadedRow (s : State) (t : Transfer) (md : MIdx) {k q b : Nat} (hq : q < s.cfg.rows)
    (hb : b < s.cfg.mlenb) :
    elem 8 (truncRow s.cfg.mlen (s.loadedRow t md (k * s.cfg.rows + q))) b =
      if k * s.cfg.rows + q < s.xmrstart.toNat then s.el 8 (md + BitVec.ofNat 3 k) q b
      else if k * s.cfg.rows + q < t.rows ∧ b < t.rowBytes then
        s.byteAt (t.addr (k * s.cfg.rows + q) b)
      else 0 := by
  obtain ⟨h4, -, hm⟩ := Config.rows_bounds s.cfg
  have hle := Mlen.bits_le s.cfg.mlen
  have d1 : (k * s.cfg.rows + q) / s.cfg.rows = k := by
    rw [Nat.mul_comm, Nat.mul_add_div (by omega), Nat.div_eq_of_lt hq, Nat.add_zero]
  have d2 : (k * s.cfg.rows + q) % s.cfg.rows = q := by
    rw [Nat.mul_comm, Nat.mul_add_mod, Nat.mod_eq_of_lt hq]
  rw [elem_truncRow _ _ _ _ (by omega)]
  unfold State.loadedRow
  split
  · simp only [State.groupRow, d1, d2, State.el]
  · by_cases h : k * s.cfg.rows + q < t.rows
    · simp only [h, if_true, true_and, State.rowFromMem]
      rw [elem_packRow (by decide) _ _ (by omega)]
      by_cases h2 : b < t.rowBytes
      · rw [List.getD_eq_getElem _ _ (by simpa using h2)]
        simp [h2]
      · rw [List.getD_eq_default _ _ (by simpa using h2)]
        simp [h2]
    · simp only [h, if_false, false_and]
      simp [elem]

end Sys2Proof.Machine
end

