-- ==== Sys2Proof/Laws/Exec.lean ====
section
/-! SUPPORT. What `exec` can do with an instruction, said once: every instruction is a list of checks,
the `MS` gate first, before a computation, a load or a store. -/

namespace Sys2Proof.Machine

/-- What the computation of an instruction that is no load or store changes: the matrix registers, and
the flags, `FS` and `xmsize` where the instruction has them. -/
structure Computed (i : Instr) (s u : State) : Prop where
  host : HostKept s u
  ms : u.mstatus.ms = s.mstatus.ms
  pc : u.pc = s.pc
  mem : u.mem = s.mem
  stale : u.stale = s.stale
  draws : u.draws = s.draws
  instret : u.instret = s.instret
  sat : isClip i = false → u.xmxsat = s.xmxsat
  satMono : s.xmxsat = true → u.xmxsat = true
  float : isFloatMul i = false → FloatKept s u
  flags : ∃ g, u.fflags = s.fflags ||| g
  regs : isConfig i = true → u.m = s.m
  built : ∀ q : MIdx, u.m[q.toNat]'q.isLt = s.m[q.toNat]'q.isLt ∨
    ∃ f, u.m[q.toNat]'q.isLt = rowsOf s.cfg f
  sizes : isConfig i = false → SizesKept s u

/-- Registers are rewritten and nothing else. -/
theorem computed_setGroup (i : Instr) (s : State) (md : MIdx) {l : List MReg}
    (h : isConfig i = false) (hl : ∀ v ∈ l, ∃ f, v = rowsOf s.cfg f) :
    Computed i s (s.setGroup md l) := by
  constructor <;> first
    | exact fun q => (setGroup_get_cases s md q l).imp id (hl _)
    | exact ⟨0, by simp only [State.setGroup_fflags]; exact (BitVec.or_zero).symm⟩
    | (constructor <;> simp)
    | simp [FloatKept, SizesKept, h]

/-- A register is rewritten and nothing else. -/
theorem computed_setM (i : Instr) (s : State) (md : MIdx) {v : MReg}
    (h : isConfig i = false) (hv : ∃ f, v = rowsOf s.cfg f) : Computed i s (s.setM md v) :=
  computed_setGroup i s md (l := [v]) h (by simpa using hv)

/-- The accumulator is built of rows. -/
theorem accBuild_rows (s : State) (l : AccLayout) (w : Nat) (f : Nat → Nat → BitVec w) :
    ∀ v ∈ s.accBuild l w f, ∃ g, v = rowsOf s.cfg g := by
  cases l
  · simp only [State.accBuild, List.mem_singleton]
    rintro v rfl
    exact ⟨_, rfl⟩
  · simp only [State.accBuild, List.mem_cons, List.not_mem_nil, or_false]
    rintro v (rfl | rfl)
    · exact ⟨_, rfl⟩
    · exact ⟨_, rfl⟩

/-- The `uop` field of a word in the arithmetic format. -/
@[simp] theorem uop_arithWord (func : BitVec 4) (uop : BitVec 3) (b24 : BitVec 1)
    (ms2 ms1 r : BitVec 3) (size : BitVec 2) (md : MIdx) :
    (arithWord func uop b24 ms2 ms1 r size md).extractLsb' 25 3 = uop :=
  (arithWord_fields func uop b24 ms2 ms1 r size md).2.2.2.2.2.2.2.2.1

/-- The `func` field of a word in the arithmetic format. -/
@[simp] theorem func_arithWord (func : BitVec 4) (uop : BitVec 3) (b24 : BitVec 1)
    (ms2 ms1 r : BitVec 3) (size : BitVec 2) (md : MIdx) :
    (arithWord func uop b24 ms2 ms1 r size md).extractLsb' 28 4 = func :=
  (arithWord_fields func uop b24 ms2 ms1 r size md).2.2.2.2.2.2.2.2.2

/-- The `uop` field of a word in the load/store format. -/
@[simp] theorem uop_memWord (func : BitVec 4) (uop : BitVec 3) (rs2 rs1 : XIdx) (size : BitVec 2)
    (reg : MIdx) : (memWord func uop rs2 rs1 size reg).extractLsb' 25 3 = uop :=
  (memWord_fields func uop rs2 rs1 size reg).2.2.2.2.2.2.1

/-- The `uop` field of a word in the immediate configuration format. -/
@[simp] theorem uop_cfgImmWord (index : BitVec 3) (uimm7 : BitVec 7) :
    (cfgImmWord index uimm7).extractLsb' 25 3 = 7#3 :=
  (cfgImmWord_fields index uimm7).2.2.2.2.2.1

/-- The `uop` field of a word in the register configuration format. -/
@[simp] theorem uop_cfgRegWord (index : BitVec 3) (rs1 : XIdx) :
    (cfgRegWord index rs1).extractLsb' 25 3 = 7#3 :=
  (cfgRegWord_fields index rs1).2.2.2.2.2.1

/-- An outcome of an instruction that is no load or store: the checks of the prologue, `MS` first and
`xmrstart` before the operand checks, then a computation and the epilogue. -/
def PlainShape (i : Instr) (s : State) (out : Host.Outcome State Fault Refusal) : Prop :=
  ∃ gates operands u,
    out = s.guard (encode i) (s.offGate :: gates ++ s.startGate :: operands)
      (.next (State.finish u)) ∧
    Computed i s u ∧
    ∀ c ∈ gates, (∃ bit < 10, c = s.featureGate bit) ∨
      (isFloatMul i = true ∧ (c = s.fsGate ∨ c = s.frmGate))

/-- Moves. -/
theorem plain_move {i : Instr} (s : State) (operands : List (Bool × Stop)) (md : MIdx) (f : Nat → Row)
    (hi : isConfig i = false) :
    PlainShape i s
      (s.guard (encode i) ([s.offGate, s.startGate] ++ operands) (.next (s.setM md (rowsOf s.cfg f)).finish)) :=
  ⟨[], operands, s.setM md (rowsOf s.cfg f), rfl, computed_setM i s md hi ⟨f, rfl⟩, by simp⟩

/-- Pointwise instructions. -/
theorem plain_pointwise {i : Instr} (s : State) (w : Nat) {bit : Nat}
    (op : BitVec w → BitVec w → BitVec w) (md ms2 : MIdx) (b : Src2) (hb : bit < 10)
    (hi : isConfig i = false) : PlainShape i s (s.pointwise (encode i) w bit op md ms2 b) :=
  ⟨[s.featureGate bit], _, _, rfl, computed_setM i s md hi ⟨_, rfl⟩,
    by simpa using .inl ⟨bit, hb, rfl⟩⟩

/-- Rounding shifts. -/
theorem plain_shiftRight {i : Instr} (s : State) (w : Nat) {bit : Nat} (md ms2 : MIdx) (b : Src2)
    (hb : bit < 10) (hi : isConfig i = false) :
    PlainShape i s (s.shiftRight (encode i) w bit md ms2 b) :=
  ⟨[s.featureGate bit], _, _, rfl, computed_setM i s md hi ⟨_, rfl⟩,
    by simpa using .inl ⟨bit, hb, rfl⟩⟩

/-- Narrowing clips, the only instructions that may set `xmxsat`. -/
theorem plain_narrowClip {i : Instr} (s : State) (w : Nat) {bit : Nat}
    (clip : BitVec 2 → BitVec w → Nat → BitVec (w / 4) × Bool) (md ms2 : MIdx) (b : Src2)
    (hb : bit < 10) (hi : isConfig i = false) (hc : isClip i = true) :
    PlainShape i s (s.narrowClip (encode i) w bit clip md ms2 b) := by
  refine ⟨[s.featureGate bit], _, _, rfl, ?_, by simpa using .inl ⟨bit, hb, rfl⟩⟩
  obtain ⟨h1, h2, h3, h4, h5, h6, hr, -, -, h7, h8, h9, h10, h11⟩ :=
    computed_setM i s md (v := tiled s.cfg s.sM (s.kElems w) (w / 4) fun i j =>
      (clip s.xmxrm (s.el w ms2 i j) (s.shiftAmount w b i j)).1) hi ⟨_, rfl⟩
  exact ⟨⟨h1.1, h1.2, h1.3, h1.4, h1.5, h1.6, h1.7, h1.8, h1.9⟩, h2, h3, h4, h5, h6, hr,
    by simp [hc], fun h => by simp [State.saturate, h], h7, h8, h9, h10, h11⟩

/-- Integer matrix multiplications. -/
theorem plain_intMul {i : Instr} (s : State) {k : IntMulKind} (md ms2 ms1 : MIdx)
    (hb : k.bit < 10) (hi : isConfig i = false) :
    PlainShape i s (s.intMul (encode i) k md ms2 ms1) :=
  ⟨[s.featureGate k.bit], accRegsOk k.acc md ms2 ms1 ++ [needs (s.validMM k.ws s.cfg.rows) .shape],
    s.setGroup md (s.accBuild k.acc k.wd (s.intAt k md ms2 ms1)), by simp [State.intMul, State.intChecks], computed_setGroup i s md hi (accBuild_rows _ _ _ _),
    by simpa using .inl ⟨k.bit, hb, rfl⟩⟩

/-- Float matrix multiplications, the only instructions that accrue flags. -/
theorem plain_floatMul {i : Instr} (s : State) {k : FloatMulKind} (md ms2 ms1 : MIdx)
    (hb : k.bit < 10) (hi : isConfig i = false) (hf : isFloatMul i = true) :
    PlainShape i s (s.floatMul (encode i) k md ms2 ms1) := by
  refine ⟨[s.featureGate k.bit, s.fsGate, s.frmGate], _, _, rfl, ?_, ?_⟩
  · obtain ⟨h1, h2, h3, h4, h5, h6, hr, h7, h8, -, -, h9, h10, h11⟩ :=
      computed_setGroup i s md (l := s.floatResult k md ms2 ms1) hi (accBuild_rows _ _ _ _)
    exact ⟨⟨h1.1, h1.2, h1.3, h1.4, h1.5, h1.6, by simp, h1.8, h1.9⟩, by simp,
      h3, h4, h5, h6, hr, h7, h8, by simp [hf], ⟨s.dotFlags k md ms2 ms1, by simp [State.accrue]⟩, h9, h10,
      h11⟩
  · simp only [List.mem_cons, List.not_mem_nil, or_false]
    rintro c (rfl | rfl | rfl)
    · exact .inl ⟨k.bit, hb, rfl⟩
    · exact .inr ⟨hf, .inl rfl⟩
    · exact .inr ⟨hf, .inr rfl⟩

/-- Configuration instructions, the only ones that write `xmsize`. -/
theorem plain_config {i : Instr} (s u : State) (operands : List (Bool × Stop))
    (hu : u = { s with sizeM := u.sizeM, sizeN := u.sizeN, sizeK := u.sizeK })
    (hi : isConfig i = true) :
    PlainShape i s
      (s.guard (encode i) ([s.offGate, s.startGate] ++ operands) (.next (State.finish u))) := by
  refine ⟨[], operands, u, rfl, ?_, by simp⟩
  rw [hu]
  constructor <;> first
    | exact fun _ => .inl rfl
    | exact ⟨0, (BitVec.or_zero).symm⟩
    | (constructor <;> simp)
    | simp [FloatKept, hi]

/-- An instruction that is no load or store. -/
theorem exec_plain (i : Instr) (s : State) (hl : isLoad i = false) (hs : isStore i = false) :
    PlainShape i s (exec i s) := by
  cases i
  case mmovMm md ms1 => exact plain_move s [] md _ (by simp [isConfig, uopOf, encode])
  case mmovMvX md ms1 rs1 => exact plain_move s [_] md _ (by simp [isConfig, uopOf, encode])
  case mmovMvI md ms1 uimm3 => exact plain_move s [_] md _ (by simp [isConfig, uopOf, encode])
  case mmovMx md rs1 => exact plain_move s [] md _ (by simp [isConfig, uopOf, encode])
  case fmmaccH md ms2 ms1 =>
    exact plain_floatMul s md ms2 ms1 (by simp) (by simp [isConfig, uopOf, encode])
      (by simp [isFloatMul, uopOf, funcOf, encode])
  case fmmaccS md ms2 ms1 =>
    exact plain_floatMul s md ms2 ms1 (by simp) (by simp [isConfig, uopOf, encode])
      (by simp [isFloatMul, uopOf, funcOf, encode])
  case fmmaccD md ms2 ms1 =>
    exact plain_floatMul s md ms2 ms1 (by simp) (by simp [isConfig, uopOf, encode])
      (by simp [isFloatMul, uopOf, funcOf, encode])
  case fwmmaccH md ms2 ms1 =>
    exact plain_floatMul s md ms2 ms1 (by simp) (by simp [isConfig, uopOf, encode])
      (by simp [isFloatMul, uopOf, funcOf, encode])
  case fwmmaccS md ms2 ms1 =>
    exact plain_floatMul s md ms2 ms1 (by simp) (by simp [isConfig, uopOf, encode])
      (by simp [isFloatMul, uopOf, funcOf, encode])
  case mmaqaB md ms2 ms1 => exact plain_intMul s md ms2 ms1 (by simp) (by simp [isConfig, uopOf, encode])
  case mmaqauB md ms2 ms1 => exact plain_intMul s md ms2 ms1 (by simp) (by simp [isConfig, uopOf, encode])
  case mmaqausB md ms2 ms1 => exact plain_intMul s md ms2 ms1 (by simp) (by simp [isConfig, uopOf, encode])
  case mmaqasuB md ms2 ms1 => exact plain_intMul s md ms2 ms1 (by simp) (by simp [isConfig, uopOf, encode])
  case mmaqaH md ms2 ms1 => exact plain_intMul s md ms2 ms1 (by simp) (by simp [isConfig, uopOf, encode])
  case mmaqauH md ms2 ms1 => exact plain_intMul s md ms2 ms1 (by simp) (by simp [isConfig, uopOf, encode])
  case mmaqausH md ms2 ms1 => exact plain_intMul s md ms2 ms1 (by simp) (by simp [isConfig, uopOf, encode])
  case mmaqasuH md ms2 ms1 => exact plain_intMul s md ms2 ms1 (by simp) (by simp [isConfig, uopOf, encode])
  case pmmaqaB md ms2 ms1 => exact plain_intMul s md ms2 ms1 (by simp) (by simp [isConfig, uopOf, encode])
  case pmmaqauB md ms2 ms1 => exact plain_intMul s md ms2 ms1 (by simp) (by simp [isConfig, uopOf, encode])
  case pmmaqausB md ms2 ms1 => exact plain_intMul s md ms2 ms1 (by simp) (by simp [isConfig, uopOf, encode])
  case pmmaqasuB md ms2 ms1 => exact plain_intMul s md ms2 ms1 (by simp) (by simp [isConfig, uopOf, encode])
  case maddSMm md ms2 ms1 => exact plain_pointwise s 32 maddOp md ms2 (.mm ms1) (by decide) (by simp [isConfig, uopOf, encode])
  case maddSMvX md ms2 ms1 rs1 => exact plain_pointwise s 32 maddOp md ms2 (.mvx ms1 rs1) (by decide) (by simp [isConfig, uopOf, encode])
  case maddSMvI md ms2 ms1 uimm3 => exact plain_pointwise s 32 maddOp md ms2 (.mvi ms1 uimm3) (by decide) (by simp [isConfig, uopOf, encode])
  case maddSMx md ms2 rs1 => exact plain_pointwise s 32 maddOp md ms2 (.mx rs1) (by decide) (by simp [isConfig, uopOf, encode])
  case maddDMm md ms2 ms1 => exact plain_pointwise s 64 maddOp md ms2 (.mm ms1) (by decide) (by simp [isConfig, uopOf, encode])
  case maddDMvX md ms2 ms1 rs1 => exact plain_pointwise s 64 maddOp md ms2 (.mvx ms1 rs1) (by decide) (by simp [isConfig, uopOf, encode])
  case maddDMvI md ms2 ms1 uimm3 => exact plain_pointwise s 64 maddOp md ms2 (.mvi ms1 uimm3) (by decide) (by simp [isConfig, uopOf, encode])
  case maddDMx md ms2 rs1 => exact plain_pointwise s 64 maddOp md ms2 (.mx rs1) (by decide) (by simp [isConfig, uopOf, encode])
  case msubSMm md ms2 ms1 => exact plain_pointwise s 32 msubOp md ms2 (.mm ms1) (by decide) (by simp [isConfig, uopOf, encode])
  case msubSMvX md ms2 ms1 rs1 => exact plain_pointwise s 32 msubOp md ms2 (.mvx ms1 rs1) (by decide) (by simp [isConfig, uopOf, encode])
  case msubSMvI md ms2 ms1 uimm3 => exact plain_pointwise s 32 msubOp md ms2 (.mvi ms1 uimm3) (by decide) (by simp [isConfig, uopOf, encode])
  case msubSMx md ms2 rs1 => exact plain_pointwise s 32 msubOp md ms2 (.mx rs1) (by decide) (by simp [isConfig, uopOf, encode])
  case msubDMm md ms2 ms1 => exact plain_pointwise s 64 msubOp md ms2 (.mm ms1) (by decide) (by simp [isConfig, uopOf, encode])
  case msubDMvX md ms2 ms1 rs1 => exact plain_pointwise s 64 msubOp md ms2 (.mvx ms1 rs1) (by decide) (by simp [isConfig, uopOf, encode])
  case msubDMvI md ms2 ms1 uimm3 => exact plain_pointwise s 64 msubOp md ms2 (.mvi ms1 uimm3) (by decide) (by simp [isConfig, uopOf, encode])
  case msubDMx md ms2 rs1 => exact plain_pointwise s 64 msubOp md ms2 (.mx rs1) (by decide) (by simp [isConfig, uopOf, encode])
  case mmulSMm md ms2 ms1 => exact plain_pointwise s 32 mmulOp md ms2 (.mm ms1) (by decide) (by simp [isConfig, uopOf, encode])
  case mmulSMvX md ms2 ms1 rs1 => exact plain_pointwise s 32 mmulOp md ms2 (.mvx ms1 rs1) (by decide) (by simp [isConfig, uopOf, encode])
  case mmulSMvI md ms2 ms1 uimm3 => exact plain_pointwise s 32 mmulOp md ms2 (.mvi ms1 uimm3) (by decide) (by simp [isConfig, uopOf, encode])
  case mmulSMx md ms2 rs1 => exact plain_pointwise s 32 mmulOp md ms2 (.mx rs1) (by decide) (by simp [isConfig, uopOf, encode])
  case mmulDMm md ms2 ms1 => exact plain_pointwise s 64 mmulOp md ms2 (.mm ms1) (by decide) (by simp [isConfig, uopOf, encode])
  case mmulDMvX md ms2 ms1 rs1 => exact plain_pointwise s 64 mmulOp md ms2 (.mvx ms1 rs1) (by decide) (by simp [isConfig, uopOf, encode])
  case mmulDMvI md ms2 ms1 uimm3 => exact plain_pointwise s 64 mmulOp md ms2 (.mvi ms1 uimm3) (by decide) (by simp [isConfig, uopOf, encode])
  case mmulDMx md ms2 rs1 => exact plain_pointwise s 64 mmulOp md ms2 (.mx rs1) (by decide) (by simp [isConfig, uopOf, encode])
  case mmulhSMm md ms2 ms1 => exact plain_pointwise s 32 mmulhOp md ms2 (.mm ms1) (by decide) (by simp [isConfig, uopOf, encode])
  case mmulhSMvX md ms2 ms1 rs1 => exact plain_pointwise s 32 mmulhOp md ms2 (.mvx ms1 rs1) (by decide) (by simp [isConfig, uopOf, encode])
  case mmulhSMvI md ms2 ms1 uimm3 => exact plain_pointwise s 32 mmulhOp md ms2 (.mvi ms1 uimm3) (by decide) (by simp [isConfig, uopOf, encode])
  case mmulhSMx md ms2 rs1 => exact plain_pointwise s 32 mmulhOp md ms2 (.mx rs1) (by decide) (by simp [isConfig, uopOf, encode])
  case mmulhDMm md ms2 ms1 => exact plain_pointwise s 64 mmulhOp md ms2 (.mm ms1) (by decide) (by simp [isConfig, uopOf, encode])
  case mmulhDMvX md ms2 ms1 rs1 => exact plain_pointwise s 64 mmulhOp md ms2 (.mvx ms1 rs1) (by decide) (by simp [isConfig, uopOf, encode])
  case mmulhDMvI md ms2 ms1 uimm3 => exact plain_pointwise s 64 mmulhOp md ms2 (.mvi ms1 uimm3) (by decide) (by simp [isConfig, uopOf, encode])
  case mmulhDMx md ms2 rs1 => exact plain_pointwise s 64 mmulhOp md ms2 (.mx rs1) (by decide) (by simp [isConfig, uopOf, encode])
  case msraSMm md ms2 ms1 => exact plain_shiftRight s 32 md ms2 (.mm ms1) (by decide) (by simp [isConfig, uopOf, encode])
  case msraSMvX md ms2 ms1 rs1 => exact plain_shiftRight s 32 md ms2 (.mvx ms1 rs1) (by decide) (by simp [isConfig, uopOf, encode])
  case msraSMvI md ms2 ms1 uimm3 => exact plain_shiftRight s 32 md ms2 (.mvi ms1 uimm3) (by decide) (by simp [isConfig, uopOf, encode])
  case msraSMx md ms2 rs1 => exact plain_shiftRight s 32 md ms2 (.mx rs1) (by decide) (by simp [isConfig, uopOf, encode])
  case msraDMm md ms2 ms1 => exact plain_shiftRight s 64 md ms2 (.mm ms1) (by decide) (by simp [isConfig, uopOf, encode])
  case msraDMvX md ms2 ms1 rs1 => exact plain_shiftRight s 64 md ms2 (.mvx ms1 rs1) (by decide) (by simp [isConfig, uopOf, encode])
  case msraDMvI md ms2 ms1 uimm3 => exact plain_shiftRight s 64 md ms2 (.mvi ms1 uimm3) (by decide) (by simp [isConfig, uopOf, encode])
  case msraDMx md ms2 rs1 => exact plain_shiftRight s 64 md ms2 (.mx rs1) (by decide) (by simp [isConfig, uopOf, encode])
  case mn4clipSMm md ms2 ms1 =>
    exact plain_narrowClip s 32 clipSignedOp md ms2 (.mm ms1) (by decide) (by simp [isConfig, uopOf, encode])
      (by simp [isClip, uopOf, funcOf, encode])
  case mn4clipSMvX md ms2 ms1 rs1 =>
    exact plain_narrowClip s 32 clipSignedOp md ms2 (.mvx ms1 rs1) (by decide) (by simp [isConfig, uopOf, encode])
      (by simp [isClip, uopOf, funcOf, encode])
  case mn4clipSMvI md ms2 ms1 uimm3 =>
    exact plain_narrowClip s 32 clipSignedOp md ms2 (.mvi ms1 uimm3) (by decide) (by simp [isConfig, uopOf, encode])
      (by simp [isClip, uopOf, funcOf, encode])
  case mn4clipSMx md ms2 rs1 =>
    exact plain_narrowClip s 32 clipSignedOp md ms2 (.mx rs1) (by decide) (by simp [isConfig, uopOf, encode])
      (by simp [isClip, uopOf, funcOf, encode])
  case mn4clipDMm md ms2 ms1 =>
    exact plain_narrowClip s 64 clipSignedOp md ms2 (.mm ms1) (by decide) (by simp [isConfig, uopOf, encode])
      (by simp [isClip, uopOf, funcOf, encode])
  case mn4clipDMvX md ms2 ms1 rs1 =>
    exact plain_narrowClip s 64 clipSignedOp md ms2 (.mvx ms1 rs1) (by decide) (by simp [isConfig, uopOf, encode])
      (by simp [isClip, uopOf, funcOf, encode])
  case mn4clipDMvI md ms2 ms1 uimm3 =>
    exact plain_narrowClip s 64 clipSignedOp md ms2 (.mvi ms1 uimm3) (by decide) (by simp [isConfig, uopOf, encode])
      (by simp [isClip, uopOf, funcOf, encode])
  case mn4clipDMx md ms2 rs1 =>
    exact plain_narrowClip s 64 clipSignedOp md ms2 (.mx rs1) (by decide) (by simp [isConfig, uopOf, encode])
      (by simp [isClip, uopOf, funcOf, encode])
  case mn4clipuSMm md ms2 ms1 =>
    exact plain_narrowClip s 32 clipUnsignedOp md ms2 (.mm ms1) (by decide) (by simp [isConfig, uopOf, encode])
      (by simp [isClip, uopOf, funcOf, encode])
  case mn4clipuSMvX md ms2 ms1 rs1 =>
    exact plain_narrowClip s 32 clipUnsignedOp md ms2 (.mvx ms1 rs1) (by decide) (by simp [isConfig, uopOf, encode])
      (by simp [isClip, uopOf, funcOf, encode])
  case mn4clipuSMvI md ms2 ms1 uimm3 =>
    exact plain_narrowClip s 32 clipUnsignedOp md ms2 (.mvi ms1 uimm3) (by decide) (by simp [isConfig, uopOf, encode])
      (by simp [isClip, uopOf, funcOf, encode])
  case mn4clipuSMx md ms2 rs1 =>
    exact plain_narrowClip s 32 clipUnsignedOp md ms2 (.mx rs1) (by decide) (by simp [isConfig, uopOf, encode])
      (by simp [isClip, uopOf, funcOf, encode])
  case mn4clipuDMm md ms2 ms1 =>
    exact plain_narrowClip s 64 clipUnsignedOp md ms2 (.mm ms1) (by decide) (by simp [isConfig, uopOf, encode])
      (by simp [isClip, uopOf, funcOf, encode])
  case mn4clipuDMvX md ms2 ms1 rs1 =>
    exact plain_narrowClip s 64 clipUnsignedOp md ms2 (.mvx ms1 rs1) (by decide) (by simp [isConfig, uopOf, encode])
      (by simp [isClip, uopOf, funcOf, encode])
  case mn4clipuDMvI md ms2 ms1 uimm3 =>
    exact plain_narrowClip s 64 clipUnsignedOp md ms2 (.mvi ms1 uimm3) (by decide) (by simp [isConfig, uopOf, encode])
      (by simp [isClip, uopOf, funcOf, encode])
  case mn4clipuDMx md ms2 rs1 =>
    exact plain_narrowClip s 64 clipUnsignedOp md ms2 (.mx rs1) (by decide) (by simp [isConfig, uopOf, encode])
      (by simp [isClip, uopOf, funcOf, encode])
  case mcfgki => exact plain_config s _ [] rfl (by simp [isConfig, uopOf, encode])
  case mcfgmi => exact plain_config s _ [] rfl (by simp [isConfig, uopOf, encode])
  case mcfgni => exact plain_config s _ [] rfl (by simp [isConfig, uopOf, encode])
  case mcfgk => exact plain_config s _ [_] rfl (by simp [isConfig, uopOf, encode])
  case mcfgm => exact plain_config s _ [_] rfl (by simp [isConfig, uopOf, encode])
  case mcfgn => exact plain_config s _ [_] rfl (by simp [isConfig, uopOf, encode])
  case mcfg => exact plain_config s _ [_] rfl (by simp [isConfig, uopOf, encode])
  all_goals simp [isLoad, isStore, uopOf, encode] at hl hs

/-- A load is a normal, stream or whole-register transfer. -/
theorem exec_load (i : Instr) (s : State) (hl : isLoad i = true) :
    (∃ esize md rs2 rs1, esize ∈ [1, 2, 4, 8] ∧
      exec i s = s.load (encode i) esize md rs2 rs1) ∨
    ∃ n esize md rs1, (n ∈ [1, 2, 4, 8] ∧ esize ∈ [1, 2, 4, 8]) ∧
      exec i s = s.wholeLoad (encode i) n esize md rs1 := by
  cases i
  case mldb => exact .inl ⟨_, _, _, _, by decide, rfl⟩
  case mldh => exact .inl ⟨_, _, _, _, by decide, rfl⟩
  case mldw => exact .inl ⟨_, _, _, _, by decide, rfl⟩
  case mldd => exact .inl ⟨_, _, _, _, by decide, rfl⟩
  case msldb => exact .inl ⟨_, _, _, _, by decide, rfl⟩
  case msldh => exact .inl ⟨_, _, _, _, by decide, rfl⟩
  case msldw => exact .inl ⟨_, _, _, _, by decide, rfl⟩
  case msldd => exact .inl ⟨_, _, _, _, by decide, rfl⟩
  case mld1mb => exact .inr ⟨_, _, _, _, by decide, rfl⟩
  case mld1mh => exact .inr ⟨_, _, _, _, by decide, rfl⟩
  case mld1mw => exact .inr ⟨_, _, _, _, by decide, rfl⟩
  case mld1md => exact .inr ⟨_, _, _, _, by decide, rfl⟩
  case mld2mb => exact .inr ⟨_, _, _, _, by decide, rfl⟩
  case mld2mh => exact .inr ⟨_, _, _, _, by decide, rfl⟩
  case mld2mw => exact .inr ⟨_, _, _, _, by decide, rfl⟩
  case mld2md => exact .inr ⟨_, _, _, _, by decide, rfl⟩
  case mld4mb => exact .inr ⟨_, _, _, _, by decide, rfl⟩
  case mld4mh => exact .inr ⟨_, _, _, _, by decide, rfl⟩
  case mld4mw => exact .inr ⟨_, _, _, _, by decide, rfl⟩
  case mld4md => exact .inr ⟨_, _, _, _, by decide, rfl⟩
  case mld8mb => exact .inr ⟨_, _, _, _, by decide, rfl⟩
  case mld8mh => exact .inr ⟨_, _, _, _, by decide, rfl⟩
  case mld8mw => exact .inr ⟨_, _, _, _, by decide, rfl⟩
  case mld8md => exact .inr ⟨_, _, _, _, by decide, rfl⟩
  all_goals simp [isLoad, uopOf, encode] at hl

/-- A store is a normal, stream or whole-register transfer. -/
theorem exec_store (i : Instr) (s : State) (hs : isStore i = true) :
    (∃ esize ms3 rs2 rs1, esize ∈ [1, 2, 4, 8] ∧
      exec i s = s.store (encode i) esize ms3 rs2 rs1) ∨
    ∃ n esize ms3 rs1, (n ∈ [1, 2, 4, 8] ∧ esize ∈ [1, 2, 4, 8]) ∧
      exec i s = s.wholeStore (encode i) n esize ms3 rs1 := by
  cases i
  case mstb => exact .inl ⟨_, _, _, _, by decide, rfl⟩
  case msth => exact .inl ⟨_, _, _, _, by decide, rfl⟩
  case mstw => exact .inl ⟨_, _, _, _, by decide, rfl⟩
  case mstd => exact .inl ⟨_, _, _, _, by decide, rfl⟩
  case msstb => exact .inl ⟨_, _, _, _, by decide, rfl⟩
  case mssth => exact .inl ⟨_, _, _, _, by decide, rfl⟩
  case msstw => exact .inl ⟨_, _, _, _, by decide, rfl⟩
  case msstd => exact .inl ⟨_, _, _, _, by decide, rfl⟩
  case mst1mb => exact .inr ⟨_, _, _, _, by decide, rfl⟩
  case mst1mh => exact .inr ⟨_, _, _, _, by decide, rfl⟩
  case mst1mw => exact .inr ⟨_, _, _, _, by decide, rfl⟩
  case mst1md => exact .inr ⟨_, _, _, _, by decide, rfl⟩
  case mst2mb => exact .inr ⟨_, _, _, _, by decide, rfl⟩
  case mst2mh => exact .inr ⟨_, _, _, _, by decide, rfl⟩
  case mst2mw => exact .inr ⟨_, _, _, _, by decide, rfl⟩
  case mst2md => exact .inr ⟨_, _, _, _, by decide, rfl⟩
  case mst4mb => exact .inr ⟨_, _, _, _, by decide, rfl⟩
  case mst4mh => exact .inr ⟨_, _, _, _, by decide, rfl⟩
  case mst4mw => exact .inr ⟨_, _, _, _, by decide, rfl⟩
  case mst4md => exact .inr ⟨_, _, _, _, by decide, rfl⟩
  case mst8mb => exact .inr ⟨_, _, _, _, by decide, rfl⟩
  case mst8mh => exact .inr ⟨_, _, _, _, by decide, rfl⟩
  case mst8mw => exact .inr ⟨_, _, _, _, by decide, rfl⟩
  case mst8md => exact .inr ⟨_, _, _, _, by decide, rfl⟩
  all_goals simp [isStore, uopOf, encode] at hs

/-- No instruction is both a load and a store. -/
theorem isStore_of_isLoad {i : Instr} (h : isLoad i = true) : isStore i = false := by
  simp only [isLoad, isStore, beq_iff_eq] at *
  simp [h]

/-- A load completes, traps in a row, takes IllegalInstruction, or is refused. -/
theorem runLoad_cases (s : State) (word : BitVec 32) (t : Transfer) (n : Nat) (md : MIdx) :
    s.runLoad word t n md = .next (s.loadDone t n md).finish ∨
    (∃ row reports, s.trouble false t = some (.faults row reports) ∧
      s.runLoad word t n md = .next ((s.loadPart t n md row).rowTrap row reports)) ∨
    s.runLoad word t n md = .next (s.illegal word) ∨
    ∃ why, s.runLoad word t n md = .refused (.reserved why) := by
  unfold State.runLoad
  split
  · rename_i why _
    exact .inr (.inr (stop_cases s word (.reserved why)))
  · rename_i row reports h
    exact .inr (.inl ⟨row, reports, h, rfl⟩)
  · exact .inl rfl

/-- A store completes, traps in a row, takes IllegalInstruction, or is refused. -/
theorem runStore_cases (s : State) (word : BitVec 32) (t : Transfer) (ms3 : MIdx) :
    s.runStore word t ms3 = .next (s.storeDone t ms3).finish ∨
    (∃ row reports, s.trouble true t = some (.faults row reports) ∧
      s.runStore word t ms3 = .next ((s.storePart t ms3 row).rowTrap row reports)) ∨
    s.runStore word t ms3 = .next (s.illegal word) ∨
    ∃ why, s.runStore word t ms3 = .refused (.reserved why) := by
  unfold State.runStore
  split
  · rename_i why _
    exact .inr (.inr (stop_cases s word (.reserved why)))
  · rename_i row reports h
    exact .inr (.inl ⟨row, reports, h, rfl⟩)
  · exact .inl rfl

/-- A transfer of an instruction: fewer than 256 rows, and addresses of `XLEN` bits. -/
def Transfer.bounded (x : Transfer) (s : State) : Prop :=
  x.rows < 256 ∧ ∀ q c, x.addr q c < 2 ^ s.cfg.xlen.bits

/-- A normal or stream transfer. -/
theorem bounded_shaped (s : State) (esize : Nat) (rs1 rs2 : XIdx) :
    (s.shaped esize rs1 rs2).bounded s :=
  ⟨s.sizeM.isLt, fun _ _ => Nat.mod_lt _ (by positivity)⟩

/-- A whole-register transfer. -/
theorem bounded_whole (s : State) {n : Nat} (esize : Nat) (rs1 : XIdx) (h : n ≤ 8) :
    (s.whole n esize rs1).bounded s := by
  refine ⟨?_, fun _ _ => Nat.mod_lt _ (by positivity)⟩
  have hr : s.cfg.rows ≤ 16 := by
    simp only [Config.rows]; cases s.cfg.mlen <;> simp [Mlen.bits]
  have := Nat.mul_le_mul h hr
  simp only [State.whole]
  omega

/-- The next states of an instruction. -/
inductive NextOf (i : Instr) (s t : State) : Prop where
  | plain (u : State) (hl : isLoad i = false) (hs : isStore i = false) (hu : Computed i s u)
      (ht : t = u.finish)
  | illegal (ht : t = s.illegal (encode i))
  | loadDone (x : Transfer) (n : Nat) (md : MIdx) (hl : isLoad i = true) (hx : x.bounded s)
      (hn : n ≤ 8) (ht : t = (s.loadDone x n md).finish)
  | loadPart (x : Transfer) (n : Nat) (md : MIdx) (row : Nat) (reports : List (Exc × Nat))
      (hl : isLoad i = true) (hx : x.bounded s) (hn : n ≤ 8)
      (hf : s.trouble false x = some (.faults row reports))
      (ht : t = (s.loadPart x n md row).rowTrap row reports)
  | storeDone (x : Transfer) (ms3 : MIdx) (hs : isStore i = true) (hx : x.bounded s)
      (ht : t = (s.storeDone x ms3).finish)
  | storePart (x : Transfer) (ms3 : MIdx) (row : Nat) (reports : List (Exc × Nat))
      (hs : isStore i = true) (hx : x.bounded s)
      (hf : s.trouble true x = some (.faults row reports))
      (ht : t = (s.storePart x ms3 row).rowTrap row reports)

/-- All that `exec` can answer as a next state. -/
theorem exec_next {i : Instr} {s t : State} (h : exec i s = .next t) : NextOf i s t := by
  have small : ∀ n, n ∈ [1, 2, 4, 8] → n ≤ 8 := by decide
  cases hl : isLoad i with
  | true =>
    obtain ⟨cs, x, n, md, hn, hx, e⟩ : ∃ cs x n md, n ≤ 8 ∧ x.bounded s ∧
        exec i s = s.guard (encode i) cs (s.runLoad (encode i) x n md) := by
      rcases exec_load i s hl with ⟨esize, _, rs2, rs1, -, e⟩ | ⟨n, esize, _, rs1, hm, e⟩
      · exact ⟨_, _, 1, _, by decide, bounded_shaped s esize rs1 rs2, e⟩
      · exact ⟨_, _, _, _, small n hm.1, bounded_whole s esize rs1 (small n hm.1), e⟩
    rw [e] at h
    rcases guard_eq_next h with ⟨h, -⟩ | h
    · rcases runLoad_cases s (encode i) x n md with e | ⟨row, rep, hf, e⟩ | e | ⟨why, e⟩ <;>
        rw [e] at h <;> cases h
      · exact .loadDone x n md hl hx hn rfl
      · exact .loadPart x n md row rep hl hx hn hf rfl
      · exact .illegal rfl
    · exact .illegal h
  | false =>
    cases hs : isStore i with
    | true =>
      obtain ⟨cs, x, ms3, hx, e⟩ : ∃ cs x ms3, x.bounded s ∧
          exec i s = s.guard (encode i) cs (s.runStore (encode i) x ms3) := by
        rcases exec_store i s hs with ⟨esize, _, rs2, rs1, -, e⟩ | ⟨n, esize, _, rs1, hm, e⟩
        · exact ⟨_, _, _, bounded_shaped s esize rs1 rs2, e⟩
        · exact ⟨_, _, _, bounded_whole s esize rs1 (small n hm.1), e⟩
      rw [e] at h
      rcases guard_eq_next h with ⟨h, -⟩ | h
      · rcases runStore_cases s (encode i) x ms3 with e | ⟨row, rep, hf, e⟩ | e | ⟨why, e⟩ <;>
          rw [e] at h <;> cases h
        · exact .storeDone x ms3 hs hx rfl
        · exact .storePart x ms3 row rep hs hx hf rfl
        · exact .illegal rfl
      · exact .illegal h
    | false =>
      obtain ⟨_, _, u, e, hu, -⟩ := exec_plain i s hl hs
      rw [e] at h
      rcases guard_eq_next h with ⟨h, -⟩ | h
      · cases h; exact .plain u hl hs hu rfl
      · exact .illegal h

end Sys2Proof.Machine
end

