-- ==== Sys2Proof/Laws/Float.lean ====
section
/-! SUPPORT. What the evaluation of a float sum can do: it keeps every predicate that addition and
rounding keep, and it is exact where `determined` says so. -/

namespace Sys2Proof.Machine

/-! ### Rounding to a number of bits -/

/-- `twoPart` is a power of two that divides the number. -/
theorem twoPart_spec (n : Nat) : ∃ t, twoPart n = 2 ^ t ∧ 2 ^ t ∣ n := by
  obtain ⟨t, -, e⟩ := (Nat.dvd_prime_pow Nat.prime_two).1 (Nat.gcd_dvd_right n (2 ^ (n.log2 + 1)))
  exact ⟨t, e, e ▸ Nat.gcd_dvd_left _ _⟩

/-- A number with at most `bits` significant bits is rounded to itself. -/
theorem roundTo_exact (rm : BitVec 3) {bits t : Nat} {v : Int} (hb : 0 < bits)
    (hd : 2 ^ t ∣ v.natAbs) (hv : v.natAbs ≤ 2 ^ t * 2 ^ bits) : roundTo rm bits v = v := by
  unfold roundTo
  dsimp only
  split
  · rfl
  · rename_i hl
    have hn : v.natAbs ≠ 0 := by
      intro h; rw [h] at hl; simp at hl; omega
    have hdiv : 2 ^ (v.natAbs.log2 + 1 - bits) ∣ v.natAbs := by
      by_cases hlog : v.natAbs.log2 < t + bits
      · exact (Nat.pow_dvd_pow 2 (by omega)).trans hd
      · have h1 := Nat.log2_self_le hn
        have h2 : 2 ^ (t + bits) ≤ 2 ^ v.natAbs.log2 := Nat.pow_le_pow_right (by decide) (by omega)
        rw [← Nat.pow_add] at hv
        have e : v.natAbs = 2 ^ (t + bits) := by omega
        rw [e, Nat.log2_two_pow]
        exact Nat.pow_dvd_pow 2 (by omega)
    have hr : ∀ m neg, roundsUp rm neg m 0 (v.natAbs.log2 + 1 - bits) = false := by
      intro m neg
      unfold roundsUp
      have hp : 2 ^ (v.natAbs.log2 + 1 - bits) ≠ 0 := by positivity
      split <;> simp
      intro h
      exact absurd h.symm hp
    rw [Nat.mod_eq_zero_of_dvd hdiv, hr, Bool.toNat_false, Nat.add_zero, Nat.div_mul_cancel hdiv]
    split <;> omega

/-- What is kept of a number with at most `bits` significant bits is the number. -/
theorem keepValue_exact (p : SumPlan) (rm : BitVec 3) {bits t : Nat} (i : Nat) {v : Int}
    (hb : 0 < bits) (hd : 2 ^ t ∣ v.natAbs) (hv : v.natAbs ≤ 2 ^ t * 2 ^ bits) :
    keepValue p rm bits i v = v := by
  unfold keepValue
  split
  · rfl
  · exact roundTo_exact rm (by omega) hd
      (hv.trans (Nat.mul_le_mul_left _ (Nat.pow_le_pow_right (by decide) (by omega))))

/-! ### Additions -/

/-- Two values that an addition takes out of a list, with the others. -/
theorem perm_of_picks {vs : List Int} {a b : Nat} (ha : a < vs.length)
    (hb : b < (vs.eraseIdx a).length) :
    (vs.getD a 0 :: (vs.eraseIdx a).getD b 0 :: (vs.eraseIdx a).eraseIdx b).Perm vs := by
  rw [List.getD_eq_getElem _ _ ha, List.getD_eq_getElem _ _ hb]
  exact ((List.getElem_cons_eraseIdx_perm hb).cons _).trans (List.getElem_cons_eraseIdx_perm ha)

/-- What one addition of a list of at least two values takes and leaves. -/
theorem picks_spec (p : SumPlan) (i : Nat) {vs : List Int} (h : 2 ≤ vs.length) :
    ∃ x y rest, (x :: y :: rest).Perm vs ∧
      vs.getD (p.order (2 * i) % vs.length) 0 = x ∧
      (vs.eraseIdx (p.order (2 * i) % vs.length)).getD
        (p.order (2 * i + 1) % (vs.eraseIdx (p.order (2 * i) % vs.length)).length) 0 = y ∧
      (vs.eraseIdx (p.order (2 * i) % vs.length)).eraseIdx
        (p.order (2 * i + 1) % (vs.eraseIdx (p.order (2 * i) % vs.length)).length) = rest := by
  have ha : p.order (2 * i) % vs.length < vs.length := Nat.mod_lt _ (by omega)
  have hl : 0 < (vs.eraseIdx (p.order (2 * i) % vs.length)).length := by
    rw [List.length_eraseIdx_of_lt ha]; omega
  exact ⟨_, _, _, perm_of_picks ha (Nat.mod_lt _ hl), rfl, rfl, rfl⟩

/-- A predicate that sums and what is kept of them have is one of every value of an evaluation. -/
theorem addValues_closed (p : SumPlan) (rm : BitVec 3) (bits : Nat) {P : Int → Prop}
    (hadd : ∀ x y, P x → P y → P (x + y)) (hkeep : ∀ i x, P x → P (keepValue p rm bits i x)) :
    ∀ (n i : Nat) (vs : List Int), n + 1 ≤ vs.length → (∀ v ∈ vs, P v) →
      (addValues p rm bits n i vs).1.length = vs.length - n ∧
      ∀ v ∈ (addValues p rm bits n i vs).1, P v := by
  intro n
  induction n with
  | zero => exact fun i vs _ h => ⟨rfl, h⟩
  | succ n ih =>
    intro i vs hl h
    obtain ⟨x, y, rest, hp, ex, ey, er⟩ := picks_spec p i (vs := vs) (by omega)
    have hlen := hp.length_eq
    simp only [List.length_cons] at hlen
    simp only [addValues, ex, ey, er]
    have hP : ∀ v ∈ x :: y :: rest, P v := fun v hv => h v (hp.mem_iff.1 hv)
    have hk := hkeep i _ (hadd x y (hP x (by simp)) (hP y (by simp)))
    obtain ⟨h1, h2⟩ := ih (i + 1) (keepValue p rm bits i (x + y) :: rest)
      (by simp only [List.length_cons]; omega)
      (by
        intro v hv
        rcases List.mem_cons.1 hv with rfl | hv
        · exact hk
        · exact hP v (by simp [hv]))
    refine ⟨?_, h2⟩
    rw [h1]; simp only [List.length_cons]; omega

/-- Values that are multiples of `2^t` of at most `bits` bits together are added exactly. -/
theorem addValues_exact (p : SumPlan) (rm : BitVec 3) {bits t : Nat} (hb : 0 < bits) :
    ∀ (n i : Nat) (vs : List Int), n + 1 ≤ vs.length → (∀ v ∈ vs, 2 ^ t ∣ v.natAbs) →
      (vs.map Int.natAbs).sum ≤ 2 ^ t * 2 ^ bits →
      (addValues p rm bits n i vs).1.sum = vs.sum ∧ (addValues p rm bits n i vs).2 = false := by
  intro n
  induction n with
  | zero => exact fun i vs _ _ _ => ⟨rfl, rfl⟩
  | succ n ih =>
    intro i vs hl hd hs
    obtain ⟨x, y, rest, hp, ex, ey, er⟩ := picks_spec p i (vs := vs) (by omega)
    have hlen := hp.length_eq
    have hsum := hp.sum_eq
    have habs := (hp.map Int.natAbs).sum_eq
    simp only [List.length_cons, List.sum_cons, List.map_cons] at hlen hsum habs
    have hD : ∀ v ∈ x :: y :: rest, 2 ^ t ∣ v.natAbs := fun v hv => hd v (hp.mem_iff.1 hv)
    have hxy : 2 ^ t ∣ (x + y).natAbs := by
      rw [← Int.natCast_dvd]
      exact Int.dvd_add (Int.natCast_dvd.2 (hD x (by simp))) (Int.natCast_dvd.2 (hD y (by simp)))
    have hle := Int.natAbs_add_le x y
    have hk := keepValue_exact p rm i hb hxy (by omega)
    simp only [addValues, ex, ey, er, hk]
    obtain ⟨h1, h2⟩ := ih (i + 1) ((x + y) :: rest)
      (by simp only [List.length_cons]; omega)
      (by
        intro v hv
        rcases List.mem_cons.1 hv with rfl | hv
        · exact hxy
        · exact hD v (by simp [hv]))
      (by simp only [List.map_cons, List.sum_cons]; omega)
    refine ⟨?_, by simp [h2]⟩
    rw [h1, List.sum_cons, ← hsum, Int.add_assoc]

/-! ### The whole sum -/

/-- The first step of an evaluation keeps terms that fit. -/
theorem mapIdx_keepValue (p : SumPlan) (rm : BitVec 3) {bits : Nat} {vs : List Int}
    (h : ∀ i, ∀ v ∈ vs, keepValue p rm bits i v = v) :
    (vs.mapIdx fun i v => keepValue p rm bits i v) = vs := by
  apply List.ext_getElem (by simp)
  intro k h1 h2
  simpa using h k _ (List.getElem_mem h2)

/-- The magnitude of a sum. -/
theorem natAbs_sum_le (vs : List Int) : vs.sum.natAbs ≤ (vs.map Int.natAbs).sum := by
  induction vs with
  | nil => simp
  | cons v vs ih =>
    simp only [List.sum_cons, List.map_cons]
    have := Int.natAbs_add_le v vs.sum
    omega

/-- A member's magnitude. -/
theorem natAbs_le_sum {vs : List Int} {v : Int} (h : v ∈ vs) :
    v.natAbs ≤ (vs.map Int.natAbs).sum := List.single_le_sum (by simp) _ (List.mem_map_of_mem h)

/-- The greatest common divisor of a list divides its members. -/
theorem foldl_gcd_dvd (vs : List Int) (g : Nat) :
    vs.foldl (fun g v => Nat.gcd g v.natAbs) g ∣ g ∧
      ∀ v ∈ vs, vs.foldl (fun g v => Nat.gcd g v.natAbs) g ∣ v.natAbs := by
  induction vs generalizing g with
  | nil => simp
  | cons w vs ih =>
    obtain ⟨h1, h2⟩ := ih (Nat.gcd g w.natAbs)
    refine ⟨h1.trans (Nat.gcd_dvd_left _ _), fun v hv => ?_⟩
    rcases List.mem_cons.1 hv with rfl | hv
    · exact h1.trans (Nat.gcd_dvd_right _ _)
    · exact h2 v hv

/-- A sum of multiples of a number is one. -/
theorem dvd_natAbs_sum {d : Nat} {vs : List Int} (h : ∀ v ∈ vs, d ∣ v.natAbs) :
    d ∣ vs.sum.natAbs := by
  rw [← Int.natCast_dvd]
  exact List.dvd_sum fun v hv => Int.natCast_dvd.2 (h v hv)

/-- A last sum of at most `bits + 1` bits, reached exactly, is the result. -/
theorem planTotal_of_exact (p : SumPlan) (rm : BitVec 3) {bits t : Nat} {vs : List Int}
    (hterms : 1 < vs.length → ∀ i, ∀ v ∈ vs, keepValue p rm bits i v = v)
    (hadd : (addValues p rm bits (vs.length - 2) vs.length vs).1.sum = vs.sum ∧
      (addValues p rm bits (vs.length - 2) vs.length vs).2 = false)
    (hd : 2 ^ t ∣ vs.sum.natAbs) (hs : vs.sum.natAbs ≤ 2 ^ t * 2 ^ (bits + 1)) :
    planTotal p rm bits vs = (vs.sum, false, false) := by
  have ht : (if vs.length ≤ 1 then vs else vs.mapIdx fun i v => keepValue p rm bits i v) = vs := by
    split
    · rfl
    · exact mapIdx_keepValue p rm (hterms (by omega))
  simp only [planTotal, ht, hadd.1, hadd.2,
    keepValue_exact p rm (2 * vs.length) (Nat.succ_pos bits) hd hs]
  simp

/-- A number that fits. -/
theorem fitsBits_spec {bits : Nat} {v : Int} (h : fitsBits bits v = true) :
    ∃ t, 2 ^ t ∣ v.natAbs ∧ v.natAbs ≤ 2 ^ t * 2 ^ bits := by
  obtain ⟨t, e, hd⟩ := twoPart_spec v.natAbs
  exact ⟨t, hd, by simpa [fitsBits, e] using h⟩

/-- Where `determined` holds every evaluation is exact. -/
theorem planTotal_of_determined (p : SumPlan) (rm : BitVec 3) {bits : Nat} (hb : 0 < bits)
    {vs : List Int} (h : determined bits vs = true) :
    planTotal p rm bits vs = (vs.sum, false, false) := by
  simp only [determined, Bool.or_eq_true, Bool.and_eq_true, decide_eq_true_eq, List.all_eq_true] at h
  rcases h with h | ⟨hl, hs⟩
  · obtain ⟨t, e, hd⟩ := twoPart_spec (vs.foldl (fun g v => Nat.gcd g v.natAbs) 0)
    rw [e] at h
    have hdv : ∀ v ∈ vs, 2 ^ t ∣ v.natAbs := fun v hv => hd.trans ((foldl_gcd_dvd vs 0).2 v hv)
    refine planTotal_of_exact p rm (t := t)
      (fun _ i v hv => keepValue_exact p rm i hb (hdv v hv) ((natAbs_le_sum hv).trans h)) ?_
      (dvd_natAbs_sum hdv) ((natAbs_sum_le vs).trans (h.trans (Nat.mul_le_mul_left _
        (Nat.pow_le_pow_right (by decide) (Nat.le_succ _)))))
    cases vs with
    | nil => exact ⟨rfl, rfl⟩
    | cons v vs => exact addValues_exact p rm hb _ _ _ (by simp only [List.length_cons]; omega) hdv h
  · obtain ⟨t, hd, hv⟩ := fitsBits_spec hs
    refine planTotal_of_exact p rm ?_ ?_ hd hv
    · intro h1 i v hm
      rcases hl with hl | ⟨-, hl⟩
      · omega
      · obtain ⟨t, hd, hv⟩ := fitsBits_spec (hl v hm)
        exact keepValue_exact p rm i hb hd hv
    · have h0 : vs.length - 2 = 0 := by
        rcases hl with hl | ⟨hl, -⟩ <;> omega
      rw [h0]
      exact ⟨rfl, rfl⟩

/-- The short cut of `sumOf` changes nothing. -/
theorem sumOf_eq_planTotal (p : SumPlan) (rm : BitVec 3) {bits : Nat} (hb : 0 < bits)
    (vs : List Int) : sumOf p rm bits vs = planTotal p rm bits vs := by
  unfold sumOf
  split
  · rename_i h
    exact (planTotal_of_determined p rm hb h).symm
  · rfl

end Sys2Proof.Machine
end

