-- ==== Sys2Proof/Laws/Matmul.lean ====
section
/-! SUPPORT. What the shared parts of the matrix multiplications can do: their checks, the accumulator
they build, and the flags they accrue. -/

namespace Sys2Proof.Machine

/-! ### Checks -/

/-- The checks of a float matrix multiplication pass exactly where it executes. -/
theorem floatChecks_pass {s : State} {k : FloatMulKind} {md ms2 ms1 : MIdx} (hr : s.ready)
    (hf : s.floatReady) (hb : s.has k.bit) (hp : (!k.pairB || pairOk ms2) = true)
    (ha : accOk k.acc md = true)
    (hd : disjointRegs (accRegs k.acc md) (ms1 :: bRegs k.pairB ms2) = true)
    (hv : s.validMM k.ws (s.maxN k.pairB) = true) :
    ∀ c ∈ s.floatChecks k md ms2 ms1, c.1 = false := by
  simp only [State.floatChecks, List.mem_cons, List.not_mem_nil, or_false, forall_eq_or_imp,
    forall_eq]
  refine ⟨by simpa [State.offGate] using hr.1, ?_, by simpa [State.fsGate] using hf.1,
    by simpa [State.frmGate] using hf.2, by simpa [State.startGate] using hr.2, by simp [needs, hp],
    by simp [needs, ha], by simp [needs, hd], by simp [needs, hv]⟩
  unfold State.has at hb
  rw [State.featureGate, hb]
  rfl

/-- The checks of an integer matrix multiplication pass exactly where it executes. -/
theorem intChecks_pass {s : State} {k : IntMulKind} {md ms2 ms1 : MIdx} (hr : s.ready)
    (hb : s.has k.bit) (ha : ∀ c ∈ accRegsOk k.acc md ms2 ms1, c.1 = false)
    (hv : s.validMM k.ws s.cfg.rows = true) : ∀ c ∈ s.intChecks k md ms2 ms1, c.1 = false := by
  intro c hc
  simp only [State.intChecks, List.mem_append, List.mem_cons, List.not_mem_nil, or_false] at hc
  rcases hc with ((rfl | rfl | rfl) | hc) | rfl
  · simpa [State.offGate] using hr.1
  · unfold State.has at hb
    rw [State.featureGate, hb]
    rfl
  · simpa [State.startGate] using hr.2
  · exact ha c hc
  · simp [needs, hv]

/-! ### The accumulator -/

/-- A single accumulator holds its function in the active shape. -/
theorem holds_of_accBuild_single {s t : State} (hc : t.cfg = s.cfg) {md : MIdx} {w : Nat} (hw : 0 < w)
    {f : Nat → Nat → BitVec w} (hm : t.m = (s.setGroup md (s.accBuild .single w f)).m) :
    t.Holds w md s.sM s.sN f := by
  apply holds_of_tiled hc hw
  simp only [hm, State.accBuild, State.setGroup, setM_get_same]

/-- An accumulator pair holds its function in the active shape, split by column. -/
theorem holds_of_accBuild_pair {s t : State} (hc : t.cfg = s.cfg) {md : MIdx}
    {f : Nat → Nat → BitVec 64} (hm : t.m = (s.setGroup md (s.accBuild .pair 64 f)).m) :
    t.HoldsPair md s.sM s.sN f := by
  have h0 := setGroup_get s md (l := s.accBuild .pair 64 f) (k := 0) (by simp [State.accBuild])
    (by simp [State.accBuild])
  have h1 := setGroup_get s md (l := s.accBuild .pair 64 f) (k := 1) (by simp [State.accBuild])
    (by simp [State.accBuild])
  simp only [BitVec.add_zero] at h0
  refine ⟨?_, ?_⟩ <;> rw [hc]
  · exact holds_of_tiled hc (by decide) (by simp only [hm]; exact h0)
  · exact holds_of_tiled hc (by decide) (by simp only [hm]; exact h1)

/-! ### Flags -/

/-- A bit of an OR over a list. -/
theorem getLsbD_foldl_or (l : List Nat) (f : Nat → BitVec 5) (a : BitVec 5) (k : Nat) :
    (l.foldl (fun acc j => acc ||| f j) a).getLsbD k = true ↔
      a.getLsbD k = true ∨ ∃ j ∈ l, (f j).getLsbD k = true := by
  induction l generalizing a with
  | nil => simp
  | cons x l ih => simp [ih, or_assoc]

/-- A bit of an OR over two lists. -/
theorem getLsbD_foldl_foldl_or (l m : List Nat) (f : Nat → Nat → BitVec 5) (a : BitVec 5) (k : Nat) :
    (l.foldl (fun acc i => m.foldl (fun acc j => acc ||| f i j) acc) a).getLsbD k = true ↔
      a.getLsbD k = true ∨ ∃ i ∈ l, ∃ j ∈ m, (f i j).getLsbD k = true := by
  induction l generalizing a with
  | nil => simp
  | cons x l ih => simp [ih, getLsbD_foldl_or, or_assoc]

/-- A flag of a float matrix multiplication is a flag of one of its dot products. -/
theorem getLsbD_dotFlags (s : State) (kind : FloatMulKind) (md ms2 ms1 : MIdx) (k : Nat) :
    (s.dotFlags kind md ms2 ms1).getLsbD k = true ↔
      ∃ i j, i < s.sM ∧ j < s.sN ∧ (s.dotAt kind md ms2 ms1 i j).2.getLsbD k = true := by
  rw [State.dotFlags, getLsbD_foldl_foldl_or]
  simp

end Sys2Proof.Machine
end

