-- ==== Sys2Proof/Laws/PerInstr.lean ====
section
/-! SUPPORT. What holds of every instruction, one lemma per constructor: its word lies in the matrix
opcode space (30_encoding.md R110). -/

namespace Sys2Proof.Laws

/-- The word of an instruction has the major opcode custom-1 and `func3 = 000`. -/
def MatrixWord.Statement (i : Instr) : Prop :=
  (encode i).extractLsb' 0 7 = majorOpcode ∧ (encode i).extractLsb' 12 3 = 0#3

/-- A word in the arithmetic format lies in the matrix opcode space. -/
theorem matrixWord_arith (func : BitVec 4) (uop : BitVec 3) (b24 : BitVec 1) (ms2 ms1 r : BitVec 3)
    (size : BitVec 2) (md : MIdx) :
    (arithWord func uop b24 ms2 ms1 r size md).extractLsb' 0 7 = majorOpcode ∧
    (arithWord func uop b24 ms2 ms1 r size md).extractLsb' 12 3 = 0#3 :=
  have h := arithWord_fields func uop b24 ms2 ms1 r size md
  ⟨h.1, h.2.2.2.1⟩

/-- A word in the load/store format lies in the matrix opcode space. -/
theorem matrixWord_mem (func : BitVec 4) (uop : BitVec 3) (rs2 rs1 : XIdx) (size : BitVec 2)
    (reg : MIdx) :
    (memWord func uop rs2 rs1 size reg).extractLsb' 0 7 = majorOpcode ∧
    (memWord func uop rs2 rs1 size reg).extractLsb' 12 3 = 0#3 :=
  have h := memWord_fields func uop rs2 rs1 size reg
  ⟨h.1, h.2.2.2.1⟩

/-- A word in the immediate configuration format lies in the matrix opcode space. -/
theorem matrixWord_cfgImm (index : BitVec 3) (uimm7 : BitVec 7) :
    (cfgImmWord index uimm7).extractLsb' 0 7 = majorOpcode ∧
    (cfgImmWord index uimm7).extractLsb' 12 3 = 0#3 :=
  have h := cfgImmWord_fields index uimm7
  ⟨h.1, h.2.2.1⟩

/-- A word in the register configuration format lies in the matrix opcode space. -/
theorem matrixWord_cfgReg (index : BitVec 3) (rs1 : XIdx) :
    (cfgRegWord index rs1).extractLsb' 0 7 = majorOpcode ∧
    (cfgRegWord index rs1).extractLsb' 12 3 = 0#3 :=
  have h := cfgRegWord_fields index rs1
  ⟨h.1, h.2.2.1⟩

namespace MatrixWord

theorem mmovMm (md : MIdx) (ms1 : MIdx) : Statement (.mmovMm md ms1) :=
  matrixWord_arith _ _ _ _ _ _ _ _

theorem mmovMvX (md : MIdx) (ms1 : MIdx) (rs1 : XcIdx) : Statement (.mmovMvX md ms1 rs1) :=
  matrixWord_arith _ _ _ _ _ _ _ _

theorem mmovMvI (md : MIdx) (ms1 : MIdx) (uimm3 : BitVec 3) : Statement (.mmovMvI md ms1 uimm3) :=
  matrixWord_arith _ _ _ _ _ _ _ _

theorem mmovMx (md : MIdx) (rs1 : XcIdx) : Statement (.mmovMx md rs1) :=
  matrixWord_arith _ _ _ _ _ _ _ _

theorem fmmaccH (md : MIdx) (ms2 : MIdx) (ms1 : MIdx) : Statement (.fmmaccH md ms2 ms1) :=
  matrixWord_arith _ _ _ _ _ _ _ _

theorem fmmaccS (md : MIdx) (ms2 : MIdx) (ms1 : MIdx) : Statement (.fmmaccS md ms2 ms1) :=
  matrixWord_arith _ _ _ _ _ _ _ _

theorem fmmaccD (md : MIdx) (ms2 : MIdx) (ms1 : MIdx) : Statement (.fmmaccD md ms2 ms1) :=
  matrixWord_arith _ _ _ _ _ _ _ _

theorem fwmmaccH (md : MIdx) (ms2 : MIdx) (ms1 : MIdx) : Statement (.fwmmaccH md ms2 ms1) :=
  matrixWord_arith _ _ _ _ _ _ _ _

theorem fwmmaccS (md : MIdx) (ms2 : MIdx) (ms1 : MIdx) : Statement (.fwmmaccS md ms2 ms1) :=
  matrixWord_arith _ _ _ _ _ _ _ _

theorem mmaqaB (md : MIdx) (ms2 : MIdx) (ms1 : MIdx) : Statement (.mmaqaB md ms2 ms1) :=
  matrixWord_arith _ _ _ _ _ _ _ _

theorem mmaqauB (md : MIdx) (ms2 : MIdx) (ms1 : MIdx) : Statement (.mmaqauB md ms2 ms1) :=
  matrixWord_arith _ _ _ _ _ _ _ _

theorem mmaqausB (md : MIdx) (ms2 : MIdx) (ms1 : MIdx) : Statement (.mmaqausB md ms2 ms1) :=
  matrixWord_arith _ _ _ _ _ _ _ _

theorem mmaqasuB (md : MIdx) (ms2 : MIdx) (ms1 : MIdx) : Statement (.mmaqasuB md ms2 ms1) :=
  matrixWord_arith _ _ _ _ _ _ _ _

theorem mmaqaH (md : MIdx) (ms2 : MIdx) (ms1 : MIdx) : Statement (.mmaqaH md ms2 ms1) :=
  matrixWord_arith _ _ _ _ _ _ _ _

theorem mmaqauH (md : MIdx) (ms2 : MIdx) (ms1 : MIdx) : Statement (.mmaqauH md ms2 ms1) :=
  matrixWord_arith _ _ _ _ _ _ _ _

theorem mmaqausH (md : MIdx) (ms2 : MIdx) (ms1 : MIdx) : Statement (.mmaqausH md ms2 ms1) :=
  matrixWord_arith _ _ _ _ _ _ _ _

theorem mmaqasuH (md : MIdx) (ms2 : MIdx) (ms1 : MIdx) : Statement (.mmaqasuH md ms2 ms1) :=
  matrixWord_arith _ _ _ _ _ _ _ _

theorem pmmaqaB (md : MIdx) (ms2 : MIdx) (ms1 : MIdx) : Statement (.pmmaqaB md ms2 ms1) :=
  matrixWord_arith _ _ _ _ _ _ _ _

theorem pmmaqauB (md : MIdx) (ms2 : MIdx) (ms1 : MIdx) : Statement (.pmmaqauB md ms2 ms1) :=
  matrixWord_arith _ _ _ _ _ _ _ _

theorem pmmaqausB (md : MIdx) (ms2 : MIdx) (ms1 : MIdx) : Statement (.pmmaqausB md ms2 ms1) :=
  matrixWord_arith _ _ _ _ _ _ _ _

theorem pmmaqasuB (md : MIdx) (ms2 : MIdx) (ms1 : MIdx) : Statement (.pmmaqasuB md ms2 ms1) :=
  matrixWord_arith _ _ _ _ _ _ _ _

theorem maddSMm (md : MIdx) (ms2 : MIdx) (ms1 : MIdx) : Statement (.maddSMm md ms2 ms1) :=
  matrixWord_arith _ _ _ _ _ _ _ _

theorem maddSMvX (md : MIdx) (ms2 : MIdx) (ms1 : MIdx) (rs1 : XcIdx) : Statement (.maddSMvX md ms2 ms1 rs1) :=
  matrixWord_arith _ _ _ _ _ _ _ _

theorem maddSMvI (md : MIdx) (ms2 : MIdx) (ms1 : MIdx) (uimm3 : BitVec 3) : Statement (.maddSMvI md ms2 ms1 uimm3) :=
  matrixWord_arith _ _ _ _ _ _ _ _

theorem maddSMx (md : MIdx) (ms2 : MIdx) (rs1 : XcIdx) : Statement (.maddSMx md ms2 rs1) :=
  matrixWord_arith _ _ _ _ _ _ _ _

theorem maddDMm (md : MIdx) (ms2 : MIdx) (ms1 : MIdx) : Statement (.maddDMm md ms2 ms1) :=
  matrixWord_arith _ _ _ _ _ _ _ _

theorem maddDMvX (md : MIdx) (ms2 : MIdx) (ms1 : MIdx) (rs1 : XcIdx) : Statement (.maddDMvX md ms2 ms1 rs1) :=
  matrixWord_arith _ _ _ _ _ _ _ _

theorem maddDMvI (md : MIdx) (ms2 : MIdx) (ms1 : MIdx) (uimm3 : BitVec 3) : Statement (.maddDMvI md ms2 ms1 uimm3) :=
  matrixWord_arith _ _ _ _ _ _ _ _

theorem maddDMx (md : MIdx) (ms2 : MIdx) (rs1 : XcIdx) : Statement (.maddDMx md ms2 rs1) :=
  matrixWord_arith _ _ _ _ _ _ _ _

theorem msubSMm (md : MIdx) (ms2 : MIdx) (ms1 : MIdx) : Statement (.msubSMm md ms2 ms1) :=
  matrixWord_arith _ _ _ _ _ _ _ _

theorem msubSMvX (md : MIdx) (ms2 : MIdx) (ms1 : MIdx) (rs1 : XcIdx) : Statement (.msubSMvX md ms2 ms1 rs1) :=
  matrixWord_arith _ _ _ _ _ _ _ _

theorem msubSMvI (md : MIdx) (ms2 : MIdx) (ms1 : MIdx) (uimm3 : BitVec 3) : Statement (.msubSMvI md ms2 ms1 uimm3) :=
  matrixWord_arith _ _ _ _ _ _ _ _

theorem msubSMx (md : MIdx) (ms2 : MIdx) (rs1 : XcIdx) : Statement (.msubSMx md ms2 rs1) :=
  matrixWord_arith _ _ _ _ _ _ _ _

theorem msubDMm (md : MIdx) (ms2 : MIdx) (ms1 : MIdx) : Statement (.msubDMm md ms2 ms1) :=
  matrixWord_arith _ _ _ _ _ _ _ _

theorem msubDMvX (md : MIdx) (ms2 : MIdx) (ms1 : MIdx) (rs1 : XcIdx) : Statement (.msubDMvX md ms2 ms1 rs1) :=
  matrixWord_arith _ _ _ _ _ _ _ _

theorem msubDMvI (md : MIdx) (ms2 : MIdx) (ms1 : MIdx) (uimm3 : BitVec 3) : Statement (.msubDMvI md ms2 ms1 uimm3) :=
  matrixWord_arith _ _ _ _ _ _ _ _

theorem msubDMx (md : MIdx) (ms2 : MIdx) (rs1 : XcIdx) : Statement (.msubDMx md ms2 rs1) :=
  matrixWord_arith _ _ _ _ _ _ _ _

theorem mmulSMm (md : MIdx) (ms2 : MIdx) (ms1 : MIdx) : Statement (.mmulSMm md ms2 ms1) :=
  matrixWord_arith _ _ _ _ _ _ _ _

theorem mmulSMvX (md : MIdx) (ms2 : MIdx) (ms1 : MIdx) (rs1 : XcIdx) : Statement (.mmulSMvX md ms2 ms1 rs1) :=
  matrixWord_arith _ _ _ _ _ _ _ _

theorem mmulSMvI (md : MIdx) (ms2 : MIdx) (ms1 : MIdx) (uimm3 : BitVec 3) : Statement (.mmulSMvI md ms2 ms1 uimm3) :=
  matrixWord_arith _ _ _ _ _ _ _ _

theorem mmulSMx (md : MIdx) (ms2 : MIdx) (rs1 : XcIdx) : Statement (.mmulSMx md ms2 rs1) :=
  matrixWord_arith _ _ _ _ _ _ _ _

theorem mmulDMm (md : MIdx) (ms2 : MIdx) (ms1 : MIdx) : Statement (.mmulDMm md ms2 ms1) :=
  matrixWord_arith _ _ _ _ _ _ _ _

theorem mmulDMvX (md : MIdx) (ms2 : MIdx) (ms1 : MIdx) (rs1 : XcIdx) : Statement (.mmulDMvX md ms2 ms1 rs1) :=
  matrixWord_arith _ _ _ _ _ _ _ _

theorem mmulDMvI (md : MIdx) (ms2 : MIdx) (ms1 : MIdx) (uimm3 : BitVec 3) : Statement (.mmulDMvI md ms2 ms1 uimm3) :=
  matrixWord_arith _ _ _ _ _ _ _ _

theorem mmulDMx (md : MIdx) (ms2 : MIdx) (rs1 : XcIdx) : Statement (.mmulDMx md ms2 rs1) :=
  matrixWord_arith _ _ _ _ _ _ _ _

theorem mmulhSMm (md : MIdx) (ms2 : MIdx) (ms1 : MIdx) : Statement (.mmulhSMm md ms2 ms1) :=
  matrixWord_arith _ _ _ _ _ _ _ _

theorem mmulhSMvX (md : MIdx) (ms2 : MIdx) (ms1 : MIdx) (rs1 : XcIdx) : Statement (.mmulhSMvX md ms2 ms1 rs1) :=
  matrixWord_arith _ _ _ _ _ _ _ _

theorem mmulhSMvI (md : MIdx) (ms2 : MIdx) (ms1 : MIdx) (uimm3 : BitVec 3) : Statement (.mmulhSMvI md ms2 ms1 uimm3) :=
  matrixWord_arith _ _ _ _ _ _ _ _

theorem mmulhSMx (md : MIdx) (ms2 : MIdx) (rs1 : XcIdx) : Statement (.mmulhSMx md ms2 rs1) :=
  matrixWord_arith _ _ _ _ _ _ _ _

theorem mmulhDMm (md : MIdx) (ms2 : MIdx) (ms1 : MIdx) : Statement (.mmulhDMm md ms2 ms1) :=
  matrixWord_arith _ _ _ _ _ _ _ _

theorem mmulhDMvX (md : MIdx) (ms2 : MIdx) (ms1 : MIdx) (rs1 : XcIdx) : Statement (.mmulhDMvX md ms2 ms1 rs1) :=
  matrixWord_arith _ _ _ _ _ _ _ _

theorem mmulhDMvI (md : MIdx) (ms2 : MIdx) (ms1 : MIdx) (uimm3 : BitVec 3) : Statement (.mmulhDMvI md ms2 ms1 uimm3) :=
  matrixWord_arith _ _ _ _ _ _ _ _

theorem mmulhDMx (md : MIdx) (ms2 : MIdx) (rs1 : XcIdx) : Statement (.mmulhDMx md ms2 rs1) :=
  matrixWord_arith _ _ _ _ _ _ _ _

theorem msraSMm (md : MIdx) (ms2 : MIdx) (ms1 : MIdx) : Statement (.msraSMm md ms2 ms1) :=
  matrixWord_arith _ _ _ _ _ _ _ _

theorem msraSMvX (md : MIdx) (ms2 : MIdx) (ms1 : MIdx) (rs1 : XcIdx) : Statement (.msraSMvX md ms2 ms1 rs1) :=
  matrixWord_arith _ _ _ _ _ _ _ _

theorem msraSMvI (md : MIdx) (ms2 : MIdx) (ms1 : MIdx) (uimm3 : BitVec 3) : Statement (.msraSMvI md ms2 ms1 uimm3) :=
  matrixWord_arith _ _ _ _ _ _ _ _

theorem msraSMx (md : MIdx) (ms2 : MIdx) (rs1 : XcIdx) : Statement (.msraSMx md ms2 rs1) :=
  matrixWord_arith _ _ _ _ _ _ _ _

theorem msraDMm (md : MIdx) (ms2 : MIdx) (ms1 : MIdx) : Statement (.msraDMm md ms2 ms1) :=
  matrixWord_arith _ _ _ _ _ _ _ _

theorem msraDMvX (md : MIdx) (ms2 : MIdx) (ms1 : MIdx) (rs1 : XcIdx) : Statement (.msraDMvX md ms2 ms1 rs1) :=
  matrixWord_arith _ _ _ _ _ _ _ _

theorem msraDMvI (md : MIdx) (ms2 : MIdx) (ms1 : MIdx) (uimm3 : BitVec 3) : Statement (.msraDMvI md ms2 ms1 uimm3) :=
  matrixWord_arith _ _ _ _ _ _ _ _

theorem msraDMx (md : MIdx) (ms2 : MIdx) (rs1 : XcIdx) : Statement (.msraDMx md ms2 rs1) :=
  matrixWord_arith _ _ _ _ _ _ _ _

theorem mn4clipSMm (md : MIdx) (ms2 : MIdx) (ms1 : MIdx) : Statement (.mn4clipSMm md ms2 ms1) :=
  matrixWord_arith _ _ _ _ _ _ _ _

theorem mn4clipSMvX (md : MIdx) (ms2 : MIdx) (ms1 : MIdx) (rs1 : XcIdx) : Statement (.mn4clipSMvX md ms2 ms1 rs1) :=
  matrixWord_arith _ _ _ _ _ _ _ _

theorem mn4clipSMvI (md : MIdx) (ms2 : MIdx) (ms1 : MIdx) (uimm3 : BitVec 3) : Statement (.mn4clipSMvI md ms2 ms1 uimm3) :=
  matrixWord_arith _ _ _ _ _ _ _ _

theorem mn4clipSMx (md : MIdx) (ms2 : MIdx) (rs1 : XcIdx) : Statement (.mn4clipSMx md ms2 rs1) :=
  matrixWord_arith _ _ _ _ _ _ _ _

theorem mn4clipDMm (md : MIdx) (ms2 : MIdx) (ms1 : MIdx) : Statement (.mn4clipDMm md ms2 ms1) :=
  matrixWord_arith _ _ _ _ _ _ _ _

theorem mn4clipDMvX (md : MIdx) (ms2 : MIdx) (ms1 : MIdx) (rs1 : XcIdx) : Statement (.mn4clipDMvX md ms2 ms1 rs1) :=
  matrixWord_arith _ _ _ _ _ _ _ _

theorem mn4clipDMvI (md : MIdx) (ms2 : MIdx) (ms1 : MIdx) (uimm3 : BitVec 3) : Statement (.mn4clipDMvI md ms2 ms1 uimm3) :=
  matrixWord_arith _ _ _ _ _ _ _ _

theorem mn4clipDMx (md : MIdx) (ms2 : MIdx) (rs1 : XcIdx) : Statement (.mn4clipDMx md ms2 rs1) :=
  matrixWord_arith _ _ _ _ _ _ _ _

theorem mn4clipuSMm (md : MIdx) (ms2 : MIdx) (ms1 : MIdx) : Statement (.mn4clipuSMm md ms2 ms1) :=
  matrixWord_arith _ _ _ _ _ _ _ _

theorem mn4clipuSMvX (md : MIdx) (ms2 : MIdx) (ms1 : MIdx) (rs1 : XcIdx) : Statement (.mn4clipuSMvX md ms2 ms1 rs1) :=
  matrixWord_arith _ _ _ _ _ _ _ _

theorem mn4clipuSMvI (md : MIdx) (ms2 : MIdx) (ms1 : MIdx) (uimm3 : BitVec 3) : Statement (.mn4clipuSMvI md ms2 ms1 uimm3) :=
  matrixWord_arith _ _ _ _ _ _ _ _

theorem mn4clipuSMx (md : MIdx) (ms2 : MIdx) (rs1 : XcIdx) : Statement (.mn4clipuSMx md ms2 rs1) :=
  matrixWord_arith _ _ _ _ _ _ _ _

theorem mn4clipuDMm (md : MIdx) (ms2 : MIdx) (ms1 : MIdx) : Statement (.mn4clipuDMm md ms2 ms1) :=
  matrixWord_arith _ _ _ _ _ _ _ _

theorem mn4clipuDMvX (md : MIdx) (ms2 : MIdx) (ms1 : MIdx) (rs1 : XcIdx) : Statement (.mn4clipuDMvX md ms2 ms1 rs1) :=
  matrixWord_arith _ _ _ _ _ _ _ _

theorem mn4clipuDMvI (md : MIdx) (ms2 : MIdx) (ms1 : MIdx) (uimm3 : BitVec 3) : Statement (.mn4clipuDMvI md ms2 ms1 uimm3) :=
  matrixWord_arith _ _ _ _ _ _ _ _

theorem mn4clipuDMx (md : MIdx) (ms2 : MIdx) (rs1 : XcIdx) : Statement (.mn4clipuDMx md ms2 rs1) :=
  matrixWord_arith _ _ _ _ _ _ _ _

theorem mldb (md : MIdx) (rs2 : XIdx) (rs1 : XIdx) : Statement (.mldb md rs2 rs1) :=
  matrixWord_mem _ _ _ _ _ _

theorem mldh (md : MIdx) (rs2 : XIdx) (rs1 : XIdx) : Statement (.mldh md rs2 rs1) :=
  matrixWord_mem _ _ _ _ _ _

theorem mldw (md : MIdx) (rs2 : XIdx) (rs1 : XIdx) : Statement (.mldw md rs2 rs1) :=
  matrixWord_mem _ _ _ _ _ _

theorem mldd (md : MIdx) (rs2 : XIdx) (rs1 : XIdx) : Statement (.mldd md rs2 rs1) :=
  matrixWord_mem _ _ _ _ _ _

theorem mstb (ms3 : MIdx) (rs2 : XIdx) (rs1 : XIdx) : Statement (.mstb ms3 rs2 rs1) :=
  matrixWord_mem _ _ _ _ _ _

theorem msth (ms3 : MIdx) (rs2 : XIdx) (rs1 : XIdx) : Statement (.msth ms3 rs2 rs1) :=
  matrixWord_mem _ _ _ _ _ _

theorem mstw (ms3 : MIdx) (rs2 : XIdx) (rs1 : XIdx) : Statement (.mstw ms3 rs2 rs1) :=
  matrixWord_mem _ _ _ _ _ _

theorem mstd (ms3 : MIdx) (rs2 : XIdx) (rs1 : XIdx) : Statement (.mstd ms3 rs2 rs1) :=
  matrixWord_mem _ _ _ _ _ _

theorem msldb (md : MIdx) (rs2 : XIdx) (rs1 : XIdx) : Statement (.msldb md rs2 rs1) :=
  matrixWord_mem _ _ _ _ _ _

theorem msldh (md : MIdx) (rs2 : XIdx) (rs1 : XIdx) : Statement (.msldh md rs2 rs1) :=
  matrixWord_mem _ _ _ _ _ _

theorem msldw (md : MIdx) (rs2 : XIdx) (rs1 : XIdx) : Statement (.msldw md rs2 rs1) :=
  matrixWord_mem _ _ _ _ _ _

theorem msldd (md : MIdx) (rs2 : XIdx) (rs1 : XIdx) : Statement (.msldd md rs2 rs1) :=
  matrixWord_mem _ _ _ _ _ _

theorem msstb (ms3 : MIdx) (rs2 : XIdx) (rs1 : XIdx) : Statement (.msstb ms3 rs2 rs1) :=
  matrixWord_mem _ _ _ _ _ _

theorem mssth (ms3 : MIdx) (rs2 : XIdx) (rs1 : XIdx) : Statement (.mssth ms3 rs2 rs1) :=
  matrixWord_mem _ _ _ _ _ _

theorem msstw (ms3 : MIdx) (rs2 : XIdx) (rs1 : XIdx) : Statement (.msstw ms3 rs2 rs1) :=
  matrixWord_mem _ _ _ _ _ _

theorem msstd (ms3 : MIdx) (rs2 : XIdx) (rs1 : XIdx) : Statement (.msstd ms3 rs2 rs1) :=
  matrixWord_mem _ _ _ _ _ _

theorem mld1mb (md : MIdx) (rs1 : XIdx) : Statement (.mld1mb md rs1) :=
  matrixWord_mem _ _ _ _ _ _

theorem mld1mh (md : MIdx) (rs1 : XIdx) : Statement (.mld1mh md rs1) :=
  matrixWord_mem _ _ _ _ _ _

theorem mld1mw (md : MIdx) (rs1 : XIdx) : Statement (.mld1mw md rs1) :=
  matrixWord_mem _ _ _ _ _ _

theorem mld1md (md : MIdx) (rs1 : XIdx) : Statement (.mld1md md rs1) :=
  matrixWord_mem _ _ _ _ _ _

theorem mld2mb (md : MIdx) (rs1 : XIdx) : Statement (.mld2mb md rs1) :=
  matrixWord_mem _ _ _ _ _ _

theorem mld2mh (md : MIdx) (rs1 : XIdx) : Statement (.mld2mh md rs1) :=
  matrixWord_mem _ _ _ _ _ _

theorem mld2mw (md : MIdx) (rs1 : XIdx) : Statement (.mld2mw md rs1) :=
  matrixWord_mem _ _ _ _ _ _

theorem mld2md (md : MIdx) (rs1 : XIdx) : Statement (.mld2md md rs1) :=
  matrixWord_mem _ _ _ _ _ _

theorem mld4mb (md : MIdx) (rs1 : XIdx) : Statement (.mld4mb md rs1) :=
  matrixWord_mem _ _ _ _ _ _

theorem mld4mh (md : MIdx) (rs1 : XIdx) : Statement (.mld4mh md rs1) :=
  matrixWord_mem _ _ _ _ _ _

theorem mld4mw (md : MIdx) (rs1 : XIdx) : Statement (.mld4mw md rs1) :=
  matrixWord_mem _ _ _ _ _ _

theorem mld4md (md : MIdx) (rs1 : XIdx) : Statement (.mld4md md rs1) :=
  matrixWord_mem _ _ _ _ _ _

theorem mld8mb (md : MIdx) (rs1 : XIdx) : Statement (.mld8mb md rs1) :=
  matrixWord_mem _ _ _ _ _ _

theorem mld8mh (md : MIdx) (rs1 : XIdx) : Statement (.mld8mh md rs1) :=
  matrixWord_mem _ _ _ _ _ _

theorem mld8mw (md : MIdx) (rs1 : XIdx) : Statement (.mld8mw md rs1) :=
  matrixWord_mem _ _ _ _ _ _

theorem mld8md (md : MIdx) (rs1 : XIdx) : Statement (.mld8md md rs1) :=
  matrixWord_mem _ _ _ _ _ _

theorem mst1mb (ms3 : MIdx) (rs1 : XIdx) : Statement (.mst1mb ms3 rs1) :=
  matrixWord_mem _ _ _ _ _ _

theorem mst1mh (ms3 : MIdx) (rs1 : XIdx) : Statement (.mst1mh ms3 rs1) :=
  matrixWord_mem _ _ _ _ _ _

theorem mst1mw (ms3 : MIdx) (rs1 : XIdx) : Statement (.mst1mw ms3 rs1) :=
  matrixWord_mem _ _ _ _ _ _

theorem mst1md (ms3 : MIdx) (rs1 : XIdx) : Statement (.mst1md ms3 rs1) :=
  matrixWord_mem _ _ _ _ _ _

theorem mst2mb (ms3 : MIdx) (rs1 : XIdx) : Statement (.mst2mb ms3 rs1) :=
  matrixWord_mem _ _ _ _ _ _

theorem mst2mh (ms3 : MIdx) (rs1 : XIdx) : Statement (.mst2mh ms3 rs1) :=
  matrixWord_mem _ _ _ _ _ _

theorem mst2mw (ms3 : MIdx) (rs1 : XIdx) : Statement (.mst2mw ms3 rs1) :=
  matrixWord_mem _ _ _ _ _ _

theorem mst2md (ms3 : MIdx) (rs1 : XIdx) : Statement (.mst2md ms3 rs1) :=
  matrixWord_mem _ _ _ _ _ _

theorem mst4mb (ms3 : MIdx) (rs1 : XIdx) : Statement (.mst4mb ms3 rs1) :=
  matrixWord_mem _ _ _ _ _ _

theorem mst4mh (ms3 : MIdx) (rs1 : XIdx) : Statement (.mst4mh ms3 rs1) :=
  matrixWord_mem _ _ _ _ _ _

theorem mst4mw (ms3 : MIdx) (rs1 : XIdx) : Statement (.mst4mw ms3 rs1) :=
  matrixWord_mem _ _ _ _ _ _

theorem mst4md (ms3 : MIdx) (rs1 : XIdx) : Statement (.mst4md ms3 rs1) :=
  matrixWord_mem _ _ _ _ _ _

theorem mst8mb (ms3 : MIdx) (rs1 : XIdx) : Statement (.mst8mb ms3 rs1) :=
  matrixWord_mem _ _ _ _ _ _

theorem mst8mh (ms3 : MIdx) (rs1 : XIdx) : Statement (.mst8mh ms3 rs1) :=
  matrixWord_mem _ _ _ _ _ _

theorem mst8mw (ms3 : MIdx) (rs1 : XIdx) : Statement (.mst8mw ms3 rs1) :=
  matrixWord_mem _ _ _ _ _ _

theorem mst8md (ms3 : MIdx) (rs1 : XIdx) : Statement (.mst8md ms3 rs1) :=
  matrixWord_mem _ _ _ _ _ _

theorem mcfgki (uimm7 : BitVec 7) : Statement (.mcfgki uimm7) :=
  matrixWord_cfgImm _ _

theorem mcfgmi (uimm7 : BitVec 7) : Statement (.mcfgmi uimm7) :=
  matrixWord_cfgImm _ _

theorem mcfgni (uimm7 : BitVec 7) : Statement (.mcfgni uimm7) :=
  matrixWord_cfgImm _ _

theorem mcfgk (rs1 : XIdx) : Statement (.mcfgk rs1) :=
  matrixWord_cfgReg _ _

theorem mcfgm (rs1 : XIdx) : Statement (.mcfgm rs1) :=
  matrixWord_cfgReg _ _

theorem mcfgn (rs1 : XIdx) : Statement (.mcfgn rs1) :=
  matrixWord_cfgReg _ _

theorem mcfg (rs1 : XIdx) : Statement (.mcfg rs1) :=
  matrixWord_cfgReg _ _

end MatrixWord

end Sys2Proof.Laws
end

