-- ==== Sys2Proof/Tests/Slice0.lean ====
section
/-! SUPPORT. Tests: ill-formed terms that the checks refuse, words that the decoder reads, one step of
each instruction, and for every statement with hypotheses a state that meets them. The expected
values are those of 95_test_vectors.md (named D, X, C, L, T, W, V, I, F, P, S, K, U, G there), or worked out
by hand from the rule that a test names. -/

namespace Sys2Proof.Tests

open Sys2Proof Sys2Proof.Machine

-- One theorem at a time: the closed computations below then never hold many checker threads at once.
set_option Elab.async false

/-! ### Well-formedness -/

/-- 10_state.md R34: an odd first register of a pair. -/
theorem test_wf_refuses_odd_pair :
    (Instr.mmaqaH 5 2 1).wellFormed = false ∧ (Instr.fmmaccD 3 2 1).wellFormed = false ∧
    (Instr.fmmaccH 0 3 1).wellFormed = false ∧ (Instr.mmaqaH 4 2 1).wellFormed = true := by decide

/-- 30_encoding.md R133: a destination that is a multiplicand (I8, I10, F17). -/
theorem test_wf_refuses_overlap :
    (Instr.mmaqaB 1 2 1).wellFormed = false ∧ (Instr.mmaqaH 0 2 1).wellFormed = false ∧
    (Instr.fmmaccH 3 2 1).wellFormed = false ∧ (Instr.fwmmaccS 2 2 1).wellFormed = false ∧
    (Instr.mmaqaB 0 2 1).wellFormed = true := by decide

/-- 42_load_store.md R215: a register number that is no multiple of the count (W4). -/
theorem test_wf_refuses_group :
    (Instr.mld2mb 1 10).wellFormed = false ∧ (Instr.mst4mw 2 10).wellFormed = false ∧
    (Instr.mld8md 4 10).wellFormed = false ∧ (Instr.mst8mb 0 20).wellFormed = true := by decide

/-! ### Decoding: the words are written field by field from the encoding tables of 30_encoding.md -/

/-- Every word of the list decodes to the instruction beside it. -/
abbrev DecodesAll (l : List (BitVec 32 × Instr)) : Prop := ∀ p ∈ l, decode p.1 = .ok p.2

theorem test_decode_move : DecodesAll [
    (0b0000_000_0_000_001_001_000_00_101_0101011#32, .mmovMm 5 1),
    (0b0000_001_0_000_001_110_000_00_100_0101011#32, .mmovMvX 4 1 6),
    (0b0000_010_0_000_001_011_000_00_011_0101011#32, .mmovMvI 3 1 3),
    (0b0000_011_0_000_000_110_000_00_101_0101011#32, .mmovMx 5 6)] := by decide

theorem test_decode_float_mul : DecodesAll [
    (0b0001_000_0_010_001_000_000_01_100_0101011#32, .fmmaccH 4 2 1),
    (0b0001_000_0_011_001_000_000_10_011_0101011#32, .fmmaccS 3 3 1),
    (0b0001_000_0_010_001_000_000_11_101_0101011#32, .fmmaccD 5 2 1),
    (0b0001_000_1_011_001_000_000_01_100_0101011#32, .fwmmaccH 4 3 1),
    (0b0001_000_1_010_001_000_000_10_011_0101011#32, .fwmmaccS 3 2 1)] := by decide

theorem test_decode_int_mul : DecodesAll [
    (0b0010_000_0_011_001_000_000_00_101_0101011#32, .mmaqaB 5 3 1),
    (0b0010_000_0_010_001_001_000_00_100_0101011#32, .mmaqauB 4 2 1),
    (0b0010_000_0_011_001_010_000_00_011_0101011#32, .mmaqausB 3 3 1),
    (0b0010_000_0_010_001_011_000_00_101_0101011#32, .mmaqasuB 5 2 1),
    (0b0010_000_0_011_001_000_000_01_100_0101011#32, .mmaqaH 4 3 1),
    (0b0010_000_0_010_001_001_000_01_011_0101011#32, .mmaqauH 3 2 1),
    (0b0010_000_0_011_001_010_000_01_101_0101011#32, .mmaqausH 5 3 1),
    (0b0010_000_0_010_001_011_000_01_100_0101011#32, .mmaqasuH 4 2 1),
    (0b0010_000_1_011_001_000_000_00_011_0101011#32, .pmmaqaB 3 3 1),
    (0b0010_000_1_010_001_001_000_00_101_0101011#32, .pmmaqauB 5 2 1),
    (0b0010_000_1_011_001_010_000_00_100_0101011#32, .pmmaqausB 4 3 1),
    (0b0010_000_1_010_001_011_000_00_011_0101011#32, .pmmaqasuB 3 2 1)] := by decide

theorem test_decode_madd : DecodesAll [
    (0b0011_000_0_011_001_000_000_10_101_0101011#32, .maddSMm 5 3 1),
    (0b0011_001_0_010_001_110_000_10_100_0101011#32, .maddSMvX 4 2 1 6),
    (0b0011_010_0_011_001_011_000_10_011_0101011#32, .maddSMvI 3 3 1 3),
    (0b0011_011_0_010_000_110_000_10_101_0101011#32, .maddSMx 5 2 6),
    (0b0011_000_0_011_001_000_000_11_100_0101011#32, .maddDMm 4 3 1),
    (0b0011_001_0_010_001_110_000_11_011_0101011#32, .maddDMvX 3 2 1 6),
    (0b0011_010_0_011_001_011_000_11_101_0101011#32, .maddDMvI 5 3 1 3),
    (0b0011_011_0_010_000_110_000_11_100_0101011#32, .maddDMx 4 2 6)] := by decide

theorem test_decode_msub : DecodesAll [
    (0b0100_000_0_011_001_000_000_10_011_0101011#32, .msubSMm 3 3 1),
    (0b0100_001_0_010_001_110_000_10_101_0101011#32, .msubSMvX 5 2 1 6),
    (0b0100_010_0_011_001_011_000_10_100_0101011#32, .msubSMvI 4 3 1 3),
    (0b0100_011_0_010_000_110_000_10_011_0101011#32, .msubSMx 3 2 6),
    (0b0100_000_0_011_001_000_000_11_101_0101011#32, .msubDMm 5 3 1),
    (0b0100_001_0_010_001_110_000_11_100_0101011#32, .msubDMvX 4 2 1 6),
    (0b0100_010_0_011_001_011_000_11_011_0101011#32, .msubDMvI 3 3 1 3),
    (0b0100_011_0_010_000_110_000_11_101_0101011#32, .msubDMx 5 2 6)] := by decide

theorem test_decode_mmul : DecodesAll [
    (0b1000_000_0_011_001_000_000_10_100_0101011#32, .mmulSMm 4 3 1),
    (0b1000_001_0_010_001_110_000_10_011_0101011#32, .mmulSMvX 3 2 1 6),
    (0b1000_010_0_011_001_011_000_10_101_0101011#32, .mmulSMvI 5 3 1 3),
    (0b1000_011_0_010_000_110_000_10_100_0101011#32, .mmulSMx 4 2 6),
    (0b1000_000_0_011_001_000_000_11_011_0101011#32, .mmulDMm 3 3 1),
    (0b1000_001_0_010_001_110_000_11_101_0101011#32, .mmulDMvX 5 2 1 6),
    (0b1000_010_0_011_001_011_000_11_100_0101011#32, .mmulDMvI 4 3 1 3),
    (0b1000_011_0_010_000_110_000_11_011_0101011#32, .mmulDMx 3 2 6)] := by decide

theorem test_decode_mmulh : DecodesAll [
    (0b1001_000_0_011_001_000_000_10_101_0101011#32, .mmulhSMm 5 3 1),
    (0b1001_001_0_010_001_110_000_10_100_0101011#32, .mmulhSMvX 4 2 1 6),
    (0b1001_010_0_011_001_011_000_10_011_0101011#32, .mmulhSMvI 3 3 1 3),
    (0b1001_011_0_010_000_110_000_10_101_0101011#32, .mmulhSMx 5 2 6),
    (0b1001_000_0_011_001_000_000_11_100_0101011#32, .mmulhDMm 4 3 1),
    (0b1001_001_0_010_001_110_000_11_011_0101011#32, .mmulhDMvX 3 2 1 6),
    (0b1001_010_0_011_001_011_000_11_101_0101011#32, .mmulhDMvI 5 3 1 3),
    (0b1001_011_0_010_000_110_000_11_100_0101011#32, .mmulhDMx 4 2 6)] := by decide

theorem test_decode_msra : DecodesAll [
    (0b0101_000_0_011_001_000_000_10_011_0101011#32, .msraSMm 3 3 1),
    (0b0101_001_0_010_001_110_000_10_101_0101011#32, .msraSMvX 5 2 1 6),
    (0b0101_010_0_011_001_011_000_10_100_0101011#32, .msraSMvI 4 3 1 3),
    (0b0101_011_0_010_000_110_000_10_011_0101011#32, .msraSMx 3 2 6),
    (0b0101_000_0_011_001_000_000_11_101_0101011#32, .msraDMm 5 3 1),
    (0b0101_001_0_010_001_110_000_11_100_0101011#32, .msraDMvX 4 2 1 6),
    (0b0101_010_0_011_001_011_000_11_011_0101011#32, .msraDMvI 3 3 1 3),
    (0b0101_011_0_010_000_110_000_11_101_0101011#32, .msraDMx 5 2 6)] := by decide

theorem test_decode_mn4clip : DecodesAll [
    (0b0110_000_0_011_001_000_000_10_100_0101011#32, .mn4clipSMm 4 3 1),
    (0b0110_001_0_010_001_110_000_10_011_0101011#32, .mn4clipSMvX 3 2 1 6),
    (0b0110_010_0_011_001_011_000_10_101_0101011#32, .mn4clipSMvI 5 3 1 3),
    (0b0110_011_0_010_000_110_000_10_100_0101011#32, .mn4clipSMx 4 2 6),
    (0b0110_000_0_011_001_000_000_11_011_0101011#32, .mn4clipDMm 3 3 1),
    (0b0110_001_0_010_001_110_000_11_101_0101011#32, .mn4clipDMvX 5 2 1 6),
    (0b0110_010_0_011_001_011_000_11_100_0101011#32, .mn4clipDMvI 4 3 1 3),
    (0b0110_011_0_010_000_110_000_11_011_0101011#32, .mn4clipDMx 3 2 6)] := by decide

theorem test_decode_mn4clipu : DecodesAll [
    (0b0111_000_0_011_001_000_000_10_101_0101011#32, .mn4clipuSMm 5 3 1),
    (0b0111_001_0_010_001_110_000_10_100_0101011#32, .mn4clipuSMvX 4 2 1 6),
    (0b0111_010_0_011_001_011_000_10_011_0101011#32, .mn4clipuSMvI 3 3 1 3),
    (0b0111_011_0_010_000_110_000_10_101_0101011#32, .mn4clipuSMx 5 2 6),
    (0b0111_000_0_011_001_000_000_11_100_0101011#32, .mn4clipuDMm 4 3 1),
    (0b0111_001_0_010_001_110_000_11_011_0101011#32, .mn4clipuDMvX 3 2 1 6),
    (0b0111_010_0_011_001_011_000_11_101_0101011#32, .mn4clipuDMvI 5 3 1 3),
    (0b0111_011_0_010_000_110_000_11_100_0101011#32, .mn4clipuDMx 4 2 6)] := by decide

theorem test_decode_load : DecodesAll [
    (0b0000_100_01100_10110_000_00_011_0101011#32, .mldb 3 12 22),
    (0b0000_100_01101_10111_000_01_101_0101011#32, .mldh 5 13 23),
    (0b0000_100_01110_11000_000_10_100_0101011#32, .mldw 4 14 24),
    (0b0000_100_01011_10100_000_11_011_0101011#32, .mldd 3 11 20),
    (0b0001_100_01100_10100_000_00_100_0101011#32, .msldb 4 12 20),
    (0b0001_100_01101_10101_000_01_011_0101011#32, .msldh 3 13 21),
    (0b0001_100_01110_10110_000_10_101_0101011#32, .msldw 5 14 22),
    (0b0001_100_01011_10111_000_11_100_0101011#32, .msldd 4 11 23)] := by decide

theorem test_decode_store : DecodesAll [
    (0b0000_101_01100_10101_000_00_110_0101011#32, .mstb 6 12 21),
    (0b0000_101_01101_10110_000_01_101_0101011#32, .msth 5 13 22),
    (0b0000_101_01110_10111_000_10_100_0101011#32, .mstw 4 14 23),
    (0b0000_101_01011_11000_000_11_110_0101011#32, .mstd 6 11 24),
    (0b0001_101_01100_11000_000_00_100_0101011#32, .msstb 4 12 24),
    (0b0001_101_01101_10100_000_01_110_0101011#32, .mssth 6 13 20),
    (0b0001_101_01110_10101_000_10_101_0101011#32, .msstw 5 14 21),
    (0b0001_101_01011_10110_000_11_100_0101011#32, .msstd 4 11 22)] := by decide

theorem test_decode_whole_load : DecodesAll [
    (0b0010_100_00000_10111_000_00_101_0101011#32, .mld1mb 5 23),
    (0b0010_100_00000_11000_000_01_101_0101011#32, .mld1mh 5 24),
    (0b0010_100_00000_10100_000_10_101_0101011#32, .mld1mw 5 20),
    (0b0010_100_00000_10101_000_11_101_0101011#32, .mld1md 5 21),
    (0b0010_100_00001_10110_000_00_010_0101011#32, .mld2mb 2 22),
    (0b0010_100_00001_10111_000_01_010_0101011#32, .mld2mh 2 23),
    (0b0010_100_00001_11000_000_10_010_0101011#32, .mld2mw 2 24),
    (0b0010_100_00001_10100_000_11_010_0101011#32, .mld2md 2 20),
    (0b0010_100_00011_10101_000_00_100_0101011#32, .mld4mb 4 21),
    (0b0010_100_00011_10110_000_01_100_0101011#32, .mld4mh 4 22),
    (0b0010_100_00011_10111_000_10_100_0101011#32, .mld4mw 4 23),
    (0b0010_100_00011_11000_000_11_100_0101011#32, .mld4md 4 24),
    (0b0010_100_00111_10100_000_00_000_0101011#32, .mld8mb 0 20),
    (0b0010_100_00111_10101_000_01_000_0101011#32, .mld8mh 0 21),
    (0b0010_100_00111_10110_000_10_000_0101011#32, .mld8mw 0 22),
    (0b0010_100_00111_10111_000_11_000_0101011#32, .mld8md 0 23)] := by decide

theorem test_decode_whole_store : DecodesAll [
    (0b0010_101_00000_11000_000_00_101_0101011#32, .mst1mb 5 24),
    (0b0010_101_00000_10100_000_01_101_0101011#32, .mst1mh 5 20),
    (0b0010_101_00000_10101_000_10_101_0101011#32, .mst1mw 5 21),
    (0b0010_101_00000_10110_000_11_101_0101011#32, .mst1md 5 22),
    (0b0010_101_00001_10111_000_00_010_0101011#32, .mst2mb 2 23),
    (0b0010_101_00001_11000_000_01_010_0101011#32, .mst2mh 2 24),
    (0b0010_101_00001_10100_000_10_010_0101011#32, .mst2mw 2 20),
    (0b0010_101_00001_10101_000_11_010_0101011#32, .mst2md 2 21),
    (0b0010_101_00011_10110_000_00_100_0101011#32, .mst4mb 4 22),
    (0b0010_101_00011_10111_000_01_100_0101011#32, .mst4mh 4 23),
    (0b0010_101_00011_11000_000_10_100_0101011#32, .mst4mw 4 24),
    (0b0010_101_00011_10100_000_11_100_0101011#32, .mst4md 4 20),
    (0b0010_101_00111_10101_000_00_000_0101011#32, .mst8mb 0 21),
    (0b0010_101_00111_10110_000_01_000_0101011#32, .mst8mh 0 22),
    (0b0010_101_00111_10111_000_10_000_0101011#32, .mst8mw 0 23),
    (0b0010_101_00111_11000_000_11_000_0101011#32, .mst8md 0 24)] := by decide

theorem test_decode_config : DecodesAll [
    (0b0_000_111_1010101_000_000_00000_0101011#32, .mcfgki 85),
    (0b0_001_111_1010101_000_000_00000_0101011#32, .mcfgmi 85),
    (0b0_010_111_1010101_000_000_00000_0101011#32, .mcfgni 85),
    (0b1_000_111_00000_10111_000_00000_0101011#32, .mcfgk 23),
    (0b1_001_111_00000_11000_000_00000_0101011#32, .mcfgm 24),
    (0b1_010_111_00000_10100_000_00000_0101011#32, .mcfgn 20),
    (0b1_111_111_00000_10101_000_00000_0101011#32, .mcfg 21)] := by decide

/-- D1 to D19: the words of 95_test_vectors.md, arithmetic formats. -/
theorem test_decode_vectors_arith : DecodesAll [
    (0x000880AB#32, .mmovMm 1 2), (0x000C81AB#32, .mmovMm 3 3), (0x020880AB#32, .mmovMvX 1 2 1),
    (0x040901AB#32, .mmovMvI 3 2 2), (0x0601022B#32, .mmovMx 4 2), (0x1044042B#32, .fmmaccH 0 2 1),
    (0x1044082B#32, .fmmaccS 0 2 1), (0x10440E2B#32, .fmmaccD 4 2 1), (0x1144042B#32, .fwmmaccH 0 2 1),
    (0x11440A2B#32, .fwmmaccS 4 2 1), (0x2044002B#32, .mmaqaB 0 2 1), (0x2045802B#32, .mmaqasuB 0 2 1),
    (0x2044062B#32, .mmaqaH 4 2 1), (0x2144002B#32, .pmmaqaB 0 2 1), (0x2145002B#32, .pmmaqausB 0 2 1),
    (0x304409AB#32, .maddSMm 3 2 1), (0x364109AB#32, .maddSMx 3 2 2), (0x36410DAB#32, .maddDMx 3 2 2),
    (0x402408AB#32, .msubSMm 1 1 1)] := by decide

/-- D20 to D37. -/
theorem test_decode_vectors_rest : DecodesAll [
    (0x804409AB#32, .mmulSMm 3 2 1), (0x904409AB#32, .mmulhSMm 3 2 1), (0x504409AB#32, .msraSMm 3 2 1),
    (0x660089AB#32, .mn4clipSMx 3 0 1), (0x70440DAB#32, .mn4clipuDMm 3 2 1),
    (0x08B500AB#32, .mldb 1 11 10), (0x08B508AB#32, .mldw 1 11 10), (0x0AC7082B#32, .mstw 0 12 14),
    (0x18B50CAB#32, .msldd 1 11 10), (0x2815012B#32, .mld2mb 2 10), (0x287A002B#32, .mld8mb 0 20),
    (0x2A7A002B#32, .mst8mb 0 20), (0x0E20002B#32, .mcfgki 8), (0x0FFC002B#32, .mcfgki 127),
    (0x1E08002B#32, .mcfgmi 2), (0x2E08002B#32, .mcfgni 2), (0x8E05002B#32, .mcfgk 10),
    (0xFE05002B#32, .mcfg 10)] := by decide

/-- X1 to X20: the reserved words, each refused by name. -/
theorem test_decode_reserved :
    ∀ p ∈ [(0x0000002B#32, Reserved.constantField), (0x0C00002B, .uop), (0xA000002B, .func),
      (0x1000002B, .floatWidth), (0x11000C2B, .floatWidth), (0x2000082B, .intWidth),
      (0x2100042B, .intWidth), (0x2002002B, .intSubOp), (0x3000002B, .pointwiseWidth),
      (0x3100082B, .pointwiseWidth), (0x0620002B, .constantField), (0x3800002B, .func),
      (0x2820002B, .nf), (0x2900002B, .wholeRs2), (0x3E00002B, .cfgIndex), (0x7E00002B, .cfgIndex),
      (0x0E0000AB, .cfgRd), (0x8E10002B, .constantField), (0x0E00802B, .constantField)],
      decode p.1 = .error (.reserved p.2) := by decide

theorem test_decode_other_opcode : decode 0x0000102B#32 = .error .notMatrix := by decide

/-- The host words of programs 1 to 5 (95_test_vectors.md, Part 3); `CSR_ADDR` is that of
`Config.standard`. -/
theorem test_decode_host :
    ∀ p ∈ [(0x00040537#32, HostInstr.lui 10 0x40), (0x20250513, .addi 10 10 0x202),
      (0xFFF28293, .addi 5 5 0xFFF), (0xFE0294E3, .bne 5 0 0xFF4),
      (0xCC3022F3, .csr .set false 5 0xCC3 0), (0x80115073, .csr .write true 0 0x801 2),
      (0x80029073, .csr .write false 0 0x800 5)], decodeHost p.1 = some p.2 := by decide

/-- The family's words of the system instructions (log 15): `ECALL`, `EBREAK`, `MRET`, `SRET`, `WFI` and
`SFENCE.VMA x10, x11`. -/
theorem test_decode_system :
    ∀ p ∈ [(0x00000073#32, HostInstr.ecall), (0x00100073, .ebreak), (0x30200073, .mret),
      (0x10200073, .sret), (0x10500073, .wfi),
      (0b0001001_01011_01010_000_00000_1110011, .sfenceVma 10 11)], decodeHost p.1 = some p.2 := by decide

/-- The host's numbering of a word's bits: the byte at the lowest address is the least significant. -/
theorem test_decode_table_word :
    decodeTableWord 32 0x2044002B = some (.mmaqaB 0 2 1) ∧ decodeTableWord 32 0x0C00002B = none := by
  decide

/-! ### One step of each instruction -/

/-- The start state of 95_test_vectors.md: `MS = 1`, `FS = 1`. -/
def base : State :=
  { State.reset with mstatus := { State.reset.mstatus with ms := 1#2, fs := 1#2 } }

/-- A row from its bytes, byte 0 first. -/
def bytes (l : List Nat) : Row := packRow (l.map (BitVec.ofNat 8))

/-- `xmsize` of a state. -/
def sized (s : State) (m n k : Nat) : State :=
  { s with sizeM := BitVec.ofNat 8 m, sizeN := BitVec.ofNat 8 n, sizeK := BitVec.ofNat 16 k }

/-- The outcome is a next state of which `p` holds. -/
def Gives (o : Host.Outcome State Fault Refusal) (p : State → Bool) : Bool :=
  match o with
  | .next t => p t
  | _ => false

/-- The outcome is the refusal of a RESERVED case. -/
def Refuses (o : Host.Outcome State Fault Refusal) (why : Reserved) : Bool :=
  match o with
  | .refused (.reserved w) => w == why
  | _ => false

/-- IllegalInstruction has been taken to machine mode with the word as trap value, and no matrix register
has changed. -/
def trapped (s : State) (i : Instr) : Bool :=
  Gives (exec i s) fun t => t.mcause == 2 && t.mepc == s.pc && t.mtval.toNat == (encode i).toNat &&
    t.m == s.m && t.mstatus.ms == s.mstatus.ms

/-- V1, V4, V8: the matrix and vector moves; the matrix size is not read. -/
theorem test_moves :
    let s := (base.setM 2 [1, 2, 3, 4]).setX 9 3
    Gives (exec (.mmovMm 1 2) s) (fun t => t.m[1] == [1, 2, 3, 4] && t.pc == 0x1004 &&
      t.mstatus.ms == 3) ∧
    Gives (exec (.mmovMvX 1 2 1) s) (fun t => t.m[1] == [4, 4, 4, 4]) ∧
    Gives (exec (.mmovMvI 2 2 0) s) (fun t => t.m[2] == [1, 1, 1, 1]) := by decide +kernel

/-- V6, V7: the scalar in every `XLEN`-bit element. -/
theorem test_mmov_mx :
    let r := bytes [2, 0, 0, 0, 1, 0, 0, 0, 2, 0, 0, 0, 1, 0, 0, 0]
    let q := bytes [0xEF, 0xBE, 0xAD, 0xDE, 0xEF, 0xBE, 0xAD, 0xDE, 0xEF, 0xBE, 0xAD, 0xDE, 0xEF, 0xBE,
      0xAD, 0xDE]
    let s32 : State := { base with cfg := { base.cfg with xlen := .x32 } }
    Gives (exec (.mmovMx 4 2) (base.setX 10 0x0000000100000002)) (fun t => t.m[4] == [r, r, r, r]) ∧
    Gives (exec (.mmovMx 4 2) (s32.setX 10 0xDEADBEEF)) (fun t => t.m[4] == [q, q, q, q]) := by
  decide +kernel

/-- V2, V3, V5: a row index that names no row. -/
theorem test_move_row_index :
    Refuses (exec (.mmovMvX 1 2 1) (base.setX 9 4)) .rowIndex ∧
    Refuses (exec (.mmovMvX 1 2 1) (base.setX 9 0x100000001)) .rowIndex ∧
    Refuses (exec (.mmovMvI 3 2 4) base) .rowIndex := by decide +kernel

/-- C1 to C5, C10. -/
theorem test_configure :
    let sizes := fun i s m n k =>
      Gives (exec i s) fun t => t.sizeM == m && t.sizeN == n && t.sizeK == k && t.mstatus.ms == 3
    sizes (.mcfgki 8) (sized base 4 2 3) 4 2 8 ∧ sizes (.mcfgmi 2) (sized base 4 2 12) 2 2 12 ∧
    sizes (.mcfgni 2) (sized base 2 4 12) 2 2 12 ∧
    sizes (.mcfgk 10) ((sized base 2 2 0).setX 10 12) 2 2 12 ∧
    sizes (.mcfgm 10) ((sized base 2 2 5).setX 10 255) 255 2 5 ∧
    sizes (.mcfgn 10) ((sized base 2 2 5).setX 10 255) 2 255 5 ∧
    sizes (.mcfg 10) (base.setX 10 0x000C0301) 1 3 12 ∧
    sizes (.mcfgk 0) (sized base 2 2 12) 2 2 0 := by decide +kernel

/-- C6, C7, C8, C11, C12, and C9: the value is stored and a later instruction is RESERVED. -/
theorem test_configure_stops :
    Refuses (exec (.mcfgk 10) (base.setX 10 0x10000)) .cfgValue ∧
    Refuses (exec (.mcfgm 10) (base.setX 10 256)) .cfgValue ∧
    Refuses (exec (.mcfg 10) (base.setX 10 0x100000000)) .cfgValue ∧
    Refuses (exec (.mcfgmi 2) { base with xmrstart := 1 }) .startRow ∧
    trapped State.reset (.mcfgmi 2) ∧
    Gives (exec (.mcfgmi 127) base) (fun t => t.sizeM == 127 &&
      Refuses (exec (.maddSMm 3 2 1) t) .shape) := by decide +kernel

/-- I1: the active part, the order of `md`, `ms2`, `ms1` and the tail. -/
theorem test_mmaqa_b :
    let c := 0xEEEEEEEEEEEEEEEE#512
    let s := sized (((base.setM 1 [bytes [1, 2, 3, 4], bytes [0xFF, 0xFE, 0xFD, 0xFC]]).setM 2
      [bytes [1, 1, 1, 1], bytes [1, 0xFF, 1, 0xFF]]).setM 0
      [(c <<< 64) ||| 0x6500000064, (c <<< 64) ||| 0xC9000000C8, c, c]) 2 2 4
    Gives (exec (.mmaqaB 0 2 1) s) (fun t => t.m[0] == [0x630000006E, 0xCB000000BE, 0, 0] &&
      t.m[1] == s.m[1]) := by decide +kernel

/-- I5: the four 8-bit forms, and the mixed ones under the other `SU_ORDER`. -/
theorem test_mmaqa_b_signs :
    let s := sized (((base.setM 1 [bytes [0xFF, 2]]).setM 2 [bytes [3, 0x80]]).setM 0 [1]) 1 1 2
    let o : State := { s with cfg := { s.cfg with suOrder := .bFirst } }
    let is := fun i (s : State) v => Gives (exec i s) fun t => t.m[0] == [v, 0, 0, 0]
    is (.mmaqaB 0 2 1) s 0xFFFFFEFE ∧ is (.mmaqauB 0 2 1) s 0x3FE ∧ is (.mmaqausB 0 2 1) s 0x1FE ∧
    is (.mmaqasuB 0 2 1) s 0xFE ∧ is (.mmaqausB 0 2 1) o 0xFE ∧ is (.mmaqasuB 0 2 1) o 0x1FE := by
  decide +kernel

/-- I7: the four 4-bit forms, low nibble first. -/
theorem test_pmmaqa_signs :
    let s := sized ((base.setM 1 [bytes [0x23, 0x8F]]).setM 2 [bytes [0x7F, 0x19]]) 1 1 2
    let is := fun i v => Gives (exec i s) fun t => t.m[0] == [v, 0, 0, 0]
    is (.pmmaqaB 0 2 1) 0xA ∧ is (.pmmaqauB 0 2 1) 0xCA ∧ is (.pmmaqausB 0 2 1) 0xFFFFFFAA ∧
    is (.pmmaqasuB 0 2 1) 0x2A := by decide +kernel

/-- I6: the 16-bit form, whose third column lies in `md+1`. The other sign forms by hand from R182:
`0xFFFE` is 65534 without sign, `0xFFFC` is 65532. -/
theorem test_mmaqa_h :
    let s := sized ((((base.setM 1 [0xFFFE]).setM 2 [3, 0xFFFC, 0x7FFF]).setM 4
      [0x20000000000000001]).setM 5 [3]) 1 3 2
    let is := fun i (u v w : BitVec 64) =>
      Gives (exec i s) fun t =>
        t.m[4] == [(v ++ u).setWidth 512, 0, 0, 0] && t.m[5] == [w.setWidth 512, 0, 0, 0]
    is (.mmaqaH 4 2 1) 0xFFFFFFFFFFFFFFFB 10 0xFFFFFFFFFFFF0005 ∧
    is (.mmaqauH 4 2 1) (1 + 65534 * 3) (2 + 65534 * 65532) (3 + 65534 * 32767) ∧
    is (.mmaqausH 4 2 1) (1 + 65534 * 3) (2 - 65534 * 4) (3 + 65534 * 32767) ∧
    is (.mmaqasuH 4 2 1) (1 - 6) (2 - 2 * 65532) (3 - 65534) := by decide +kernel

/-- I2, I14: the sum wraps with no flag; no columns give the accumulator back and clear the tail. -/
theorem test_int_mul_corners :
    let s := sized (((base.setM 1 [1]).setM 2 [1]).setM 0 [0xEE7FFFFFFF]) 1 1 1
    Gives (exec (.mmaqaB 0 2 1) s) (fun t => t.m[0] == [0x80000000, 0, 0, 0] && t.fflags == 0 &&
      !t.xmxsat) ∧
    Gives (exec (.mmaqaB 0 2 1) (sized s 1 1 0)) (fun t => t.m[0] == [0x7FFFFFFF, 0, 0, 0]) := by
  decide +kernel

/-- I8 to I13. -/
theorem test_int_mul_stops :
    Refuses (exec (.mmaqaB 1 2 1) base) .overlap ∧
    Refuses (exec (.mmaqaH 5 2 1) base) .oddPair ∧
    Refuses (exec (.mmaqaH 0 2 1) base) .overlap ∧
    Refuses (exec (.mmaqaH 4 2 1) (sized base 1 1 3)) .shape ∧
    Refuses (exec (.mmaqaB 0 2 1) (sized base 1 5 4)) .shape ∧
    trapped { base with cfg := { base.cfg with features := 0x3FE } } (.pmmaqaB 0 2 1) := by
  decide +kernel

/-- F1. -/
theorem test_fmmacc_s :
    let s := sized (((base.setM 1 [0x40400000400000003F800000, 0x40C0000040A0000040800000]).setM 2
      [0x3F800000000000003F800000, 0x3F80000000000000]).setM 0 [0x41A0000041200000, 0x4220000041F00000])
      2 2 12
    Gives (exec (.fmmaccS 0 2 1) s) (fun t =>
      t.m[0] == [0x41B0000041600000, 0x4234000042200000, 0, 0] && t.fflags == 0 &&
      t.mstatus.fs == 3 && t.mstatus.ms == 3) := by decide +kernel

/-- F9: operand B in the pair, five columns. -/
theorem test_fmmacc_h :
    let s := sized ((((base.setM 1 [0x40003C00]).setM 2
      [0x3C003C00, 0x3C004000, 0x3C004200, 0x3C004400]).setM 3 [0x3C004500]).setM 0 [0]) 1 5 4
    Gives (exec (.fmmaccH 0 2 1) s) (fun t => t.m[0] == [0x47004600450044004200, 0, 0, 0]) := by
  decide +kernel

/-- F11, and `fmmacc.d` by hand from R161: 1 + 1.5 * 4 = 7 in `md`. -/
theorem test_float_pairs :
    let one := 0x3FF0000000000000#64
    let s := sized ((((base.setM 1 [0x3FC00000]).setM 2 [0x40000000, 0x40800000, 0x41000000]).setM 4
      [(one ++ one).setWidth 512]).setM 5 [one.setWidth 512]) 1 3 4
    let d := sized (((base.setM 1 [0x3FF8000000000000]).setM 2 [0x4010000000000000]).setM 4
      [one.setWidth 512]) 1 1 8
    Gives (exec (.fwmmaccS 4 2 1) s) (fun t => t.m[4] == [0x401C0000000000004010000000000000, 0, 0, 0] &&
      t.m[5] == [0x402A000000000000, 0, 0, 0]) ∧
    Gives (exec (.fmmaccD 4 2 1) d) (fun t => t.m[4] == [0x401C000000000000, 0, 0, 0]) := by
  decide +kernel

/-- F10: the bfloat16 and the binary16 reading. -/
theorem test_fwmmacc_h :
    let s := sized (((base.setM 1 [0x40003F80]).setM 2 [0x40804040]).setM 0 [0x3F800000]) 1 1 4
    let b : State := { s with cfg := { s.cfg with hasBf16 := true }, bf16 := true }
    Gives (exec (.fwmmaccH 0 2 1) s) (fun t => t.m[0] == [0x4117C000, 0, 0, 0]) ∧
    Gives (exec (.fwmmaccH 0 2 1) b) (fun t => t.m[0] == [0x41400000, 0, 0, 0]) := by decide +kernel

/-- F2, F4 to F6, F15: the special values. -/
theorem test_float_special :
    let s := fun a b c => sized (((base.setM 1 [a]).setM 2 [b]).setM 0 [c]) 1 1 4
    let is := fun (s : State) v => Gives (exec (.fmmaccS 0 2 1) s) fun t => t.m[0] == [v, 0, 0, 0]
    let flags := fun (s : State) f => Gives (exec (.fmmaccS 0 2 1) s) fun t => t.fflags == f
    is (s 0x7FC00001 0x3F800000 0x40000000) 0x7FC00000 ∧
    is (s 0x7F800000 0 0x3F800000) 0x7FC00000 ∧ flags (s 0x7F800000 0 0x3F800000) 0x10 ∧
    is (s 0x7F800000 0x40000000 0x40A00000) 0x7F800000 ∧
    flags (s 0x7F800000 0x40000000 0x40A00000) 0 ∧
    is (sized (s 0 0 0x3F800000) 1 1 0) 0x3F800000 := by decide +kernel

/-- F7, F8: overflow and a tie in the rounding modes. -/
theorem test_float_rounding :
    let s := fun a b c rm =>
      ({ sized (((base.setM 1 [a]).setM 2 [b]).setM 0 [c]) 1 1 4 with frm := rm } : State)
    let is := fun (s : State) v f =>
      Gives (exec (.fmmaccS 0 2 1) s) fun t => t.m[0] == [v, 0, 0, 0] && t.fflags == f
    is (s 0x7F7FFFFF 0x40000000 0 0) 0x7F800000 5 ∧ is (s 0x7F7FFFFF 0x40000000 0 1) 0x7F7FFFFF 5 ∧
    is (s 0x33800000 0x3F800000 0x3F800000 0) 0x3F800000 1 ∧
    is (s 0x33800000 0x3F800000 0x3F800000 2) 0x3F800000 1 ∧
    is (s 0x33800000 0x3F800000 0x3F800000 3) 0x3F800001 1 ∧
    is (s 0x33800000 0x3F800000 0x3F800000 4) 0x3F800001 1 := by decide +kernel

/-- F12 to F14, F16, F17. -/
theorem test_float_stops :
    trapped { base with mstatus := { base.mstatus with fs := 0 } } (.fmmaccS 0 2 1) ∧
    trapped { base with frm := 5 } (.fwmmaccS 4 2 1) ∧
    trapped { base with cfg := { base.cfg with features := 0x3EF } } (.fmmaccS 0 2 1) ∧
    Refuses (exec (.fmmaccH 0 3 1) base) .oddPair ∧
    Refuses (exec (.fmmaccH 3 2 1) base) .overlap := by decide +kernel

/-- One active element of width `w`: `a` in `M2`, `b0` and `b1` in rows 0 and 1 of `M1`, the scalar in
`x10`, the row number 1 in `x9`; every byte of `M3` is set. -/
def point (w : Nat) (a b0 b1 : Row) (scalar : Word) : State :=
  let s := ((base.setM 2 [a]).setM 1 [b0, b1]).setM 3 (List.replicate 4 (2 ^ 128 - 1))
  sized ((s.setX 10 scalar).setX 9 1) 1 0 (w / 8)

/-- The four forms give these first elements in `M3`, and zero elsewhere. -/
def forms (s : State) (mm : MIdx → MIdx → MIdx → Instr) (mvx mvi : MIdx → MIdx → MIdx → BitVec 3 → Instr)
    (mx : MIdx → MIdx → XcIdx → Instr) (r0 r1 r2 r3 : Row) : Bool :=
  let is := fun i v => Gives (exec i s) fun t =>
    t.m[3] == [v, 0, 0, 0] && t.pc == 0x1004 && t.m[2] == s.m[2]
  is (mm 3 2 1) r0 && is (mvx 3 2 1 1) r1 && is (mvi 3 2 1 1) r2 && is (mx 3 2 2) r3

/-- P2, P3, P12, P16 and by hand from R312, R314. -/
theorem test_madd :
    forms (point 32 0xFFFFFFFF 1 0x80000000 0x0000000100000004) .maddSMm .maddSMvX .maddSMvI .maddSMx
      0 0x7FFFFFFF 0x7FFFFFFF 3 ∧
    forms (point 64 0xFFFFFFFFFFFFFFFF 1 3 4) .maddDMm .maddDMvX .maddDMvI .maddDMx 0 2 2 3 := by
  decide +kernel

/-- P15: the scalar of a 64-bit form on RV32. -/
theorem test_madd_scalar_rv32 :
    let s : State := { base with cfg := { base.cfg with xlen := .x32 } }
    Gives (exec (.maddDMx 3 2 2) (sized ((s.setM 2 [5]).setX 10 0xFFFFFFFF) 1 0 8))
      (fun t => t.m[3] == [4, 0, 0, 0]) := by decide +kernel

/-- P1: MX's shape E2. -/
theorem test_madd_shape :
    Gives (exec (.maddSMm 3 2 1) (sized ((base.setM 2 [bytes [1, 0, 0, 0, 2, 0, 0, 0, 3, 0, 0, 0, 9],
      bytes [4, 0, 0, 0, 5, 0, 0, 0, 6]]).setM 1 [bytes [10, 0, 0, 0, 20, 0, 0, 0, 30],
      bytes [40, 0, 0, 0, 50, 0, 0, 0, 60]]) 2 0 12))
      (fun t => t.m[3] == [bytes [11, 0, 0, 0, 22, 0, 0, 0, 33],
        bytes [44, 0, 0, 0, 55, 0, 0, 0, 66], 0, 0]) := by decide +kernel

/-- P4, P5 and by hand from R314: `ms2` is the minuend. -/
theorem test_msub :
    forms (point 32 5 0xFFFFFFFD 6 1) .msubSMm .msubSMvX .msubSMvI .msubSMx 8 0xFFFFFFFF 0xFFFFFFFF 4 ∧
    forms (point 64 0 1 2 0xFFFFFFFFFFFFFFFF) .msubDMm .msubDMvX .msubDMvI .msubDMx
      0xFFFFFFFFFFFFFFFF 0xFFFFFFFFFFFFFFFE 0xFFFFFFFFFFFFFFFE 1 := by decide +kernel

/-- P6, P7, P13 and by hand from R314. -/
theorem test_mmul :
    forms (point 32 0xFFFFFFFF 0xFFFFFFFF 7 2) .mmulSMm .mmulSMvX .mmulSMvI .mmulSMx
      1 0xFFFFFFF9 0xFFFFFFF9 0xFFFFFFFE ∧
    forms (point 64 0x100000000 0x100000000 7 2) .mmulDMm .mmulDMvX .mmulDMvI .mmulDMx
      0 0x700000000 0x700000000 0x200000000 := by decide +kernel

/-- P8, P14 and by hand from R314: the product is signed times signed. -/
theorem test_mmulh :
    forms (point 32 0x80000000 0x80000000 1 4) .mmulhSMm .mmulhSMvX .mmulhSMvI .mmulhSMx
      0x40000000 0xFFFFFFFF 0xFFFFFFFF 0xFFFFFFFE ∧
    forms (point 64 0x8000000000000000 0x8000000000000000 1 4) .mmulhDMm .mmulhDMvX .mmulhDMvI
      .mmulhDMx 0x4000000000000000 0xFFFFFFFFFFFFFFFF 0xFFFFFFFFFFFFFFFF 0xFFFFFFFFFFFFFFFE := by
  decide +kernel

/-- S11 and the 64-bit case beside it, and by hand from R40: 0x3FF shifted by 2 is 255.75. -/
theorem test_msra :
    forms (point 32 0x3FF 35 2 0) .msraSMm .msraSMvX .msraSMvI .msraSMx 0x80 0x100 0x100 0x3FF ∧
    forms (point 64 0x3FF 67 2 64) .msraDMm .msraDMvX .msraDMvI .msraDMx 0x80 0x100 0x100 0x3FF := by
  decide +kernel

/-- S2, S4, S5: the four rounding modes. -/
theorem test_msra_rounding :
    let is := fun a d rm v => Gives (exec (.msraSMm 3 2 1) { point 32 a d 0 0 with xmxrm := rm })
      fun t => t.m[3] == [v, 0, 0, 0] && !t.xmxsat
    is 6 2 0 2 ∧ is 6 2 1 2 ∧ is 6 2 2 1 ∧ is 6 2 3 1 ∧
    is 0xFFFFFFF6 2 0 0xFFFFFFFE ∧ is 0xFFFFFFF6 2 2 0xFFFFFFFD ∧
    is 0xFFFFFFF5 1 0 0xFFFFFFFB ∧ is 0xFFFFFFF5 1 1 0xFFFFFFFA ∧ is 0xFFFFFFF5 1 3 0xFFFFFFFB := by
  decide +kernel

/-- K1, K2 and by hand from R363: -123 shifted by 3 rounds to -15, by 0 it stays. -/
theorem test_mn4clip :
    forms (point 32 0xFFFFFF85 2 3 0) .mn4clipSMm .mn4clipSMvX .mn4clipSMvI .mn4clipSMx
      0xE1 0xF1 0xF1 0x85 ∧
    forms (point 64 0xFFFFFFFFFFFFFF85 2 3 0) .mn4clipDMm .mn4clipDMvX .mn4clipDMvI .mn4clipDMx
      0xFFE1 0xFFF1 0xFFF1 0xFF85 := by decide +kernel

/-- U2, U3, U4 and the 64-bit case by hand from R363. -/
theorem test_mn4clipu :
    forms (point 32 0x3FD 2 3 0) .mn4clipuSMm .mn4clipuSMvX .mn4clipuSMvI .mn4clipuSMx
      0xFF 0x80 0x80 0xFF ∧
    forms (point 64 0x3FFFC 2 3 0) .mn4clipuDMm .mn4clipuDMvX .mn4clipuDMvI .mn4clipuDMx
      0xFFFF 0x8000 0x8000 0xFFFF := by decide +kernel

/-- K1, K4, K5, K7, U1, U2, K12: saturation after rounding, and the sticky flag. -/
theorem test_saturation :
    let is := fun i a d rm v sat => Gives (exec i { point 32 a d 0 0 with xmxrm := rm })
      fun t => t.m[3] == [v, 0, 0, 0] && t.xmxsat == sat
    is (.mn4clipSMm 3 2 1) 0x3FF 2 0 0x7F true ∧ is (.mn4clipSMm 3 2 1) 0xFFFFFE00 2 0 0x80 false ∧
    is (.mn4clipSMm 3 2 1) 0x1FE 2 0 0x7F true ∧ is (.mn4clipSMm 3 2 1) 0x1FE 2 2 0x7F false ∧
    is (.mn4clipSMm 3 2 1) 0xFFFFFDFE 2 0 0x80 false ∧ is (.mn4clipSMm 3 2 1) 0xFFFFFDFE 2 3 0x80 true ∧
    is (.mn4clipuSMm 3 2 1) 0x3FF 2 1 0xFF true ∧ is (.mn4clipuSMm 3 2 1) 0x3FF 2 3 0xFF false ∧
    is (.mn4clipuSMm 3 2 1) 0xFFFFFF85 2 2 0xFF true ∧
    Gives (exec (.mn4clipSMm 3 2 1) { point 32 4 2 0 0 with xmxsat := true })
      (fun t => t.m[3] == [1, 0, 0, 0] && t.xmxsat) := by decide +kernel

/-- K11, K13: two elements, packed from byte 0. -/
theorem test_clip_packs :
    Gives (exec (.mn4clipSMx 3 2 2) (sized ((base.setM 2 [0xFFFFFF85000003FF]).setX 10 2) 1 0 8))
      (fun t => t.m[3] == [0xE17F, 0, 0, 0] && t.xmxsat) ∧
    Gives (exec (.mn4clipuDMm 3 2 1) (sized ((base.setM 2 [0xFFFFFFFFFFFFFF8500000000000003FF]).setM 1
      [0x10000000000000003]) 1 0 16)) (fun t => t.m[3] == [0xFFFF0080, 0, 0, 0] && t.xmxsat) := by
  decide +kernel

/-- P19, P20, P21, G5. -/
theorem test_pointwise_stops :
    Refuses (exec (.maddSMvX 3 2 1 1) (base.setX 9 4)) .rowIndex ∧
    trapped { base with cfg := { base.cfg with features := 0x37F } } (.msraSMm 3 2 1) ∧
    trapped { base with cfg := { base.cfg with features := 0x3BF } } (.mmulDMx 3 2 1) ∧
    Refuses (exec (.maddSMm 3 2 1) (sized base 1 0 6)) .shape ∧
    Refuses (exec (.maddSMm 3 2 1) (sized base 5 0 4)) .shape ∧
    Refuses (exec (.mmovMm 3 2) { base with xmrstart := 1 }) .startRow := by decide +kernel

/-- The memory of L1 to L6 (95_test_vectors.md 2.3). -/
def memL : Memory :=
  Memory.writeAll [] [(0x1000, 0x11), (0x1001, 0x22), (0x1002, 0x33), (0x1003, 0x44), (0x1004, 0x55),
    (0x1005, 0x66), (0x1006, 0x77), (0x1007, 0x88), (0x1010, 0x99), (0x1011, 0xAA), (0x1012, 0xBB),
    (0x1013, 0xCC), (0x1014, 0xDD), (0x1015, 0xEE), (0x1016, 0xFF)]

/-- `x10 = 0x1000`, `x11 = 0x10`; every byte of `M1` is set. -/
def stateL : State :=
  { (((base.setM 1 (List.replicate 4 (2 ^ 128 - 1))).setX 10 0x1000).setX 11 0x10) with mem := memL }

/-- L1, L2: the normal and stream loads of every width, little-endian, with the tail zeroed. -/
theorem test_loads :
    let a := bytes [0x11, 0x22, 0x33, 0x44, 0x55, 0x66, 0x77, 0x88]
    let b := bytes [0x99, 0xAA, 0xBB, 0xCC, 0xDD, 0xEE, 0xFF]
    (∀ i ∈ [Instr.mldb 1 11 10, .mldh 1 11 10, .mldw 1 11 10, .mldd 1 11 10, .msldb 1 11 10,
      .msldh 1 11 10, .msldw 1 11 10, .msldd 1 11 10],
      Gives (exec i (sized stateL 2 0 8)) fun t => t.m[1] == [a, b, 0, 0] && t.mem == memL &&
        t.el 32 1 0 0 == 0x44332211) ∧
    Gives (exec (.mldb 1 11 10) (sized stateL 2 0 3)) fun t =>
      t.m[1] == [bytes [0x11, 0x22, 0x33], bytes [0x99, 0xAA, 0xBB], 0, 0] := by decide +kernel

/-- L3, L4, L5, L8, L9. -/
theorem test_load_corners :
    let s := sized stateL 2 0 8
    Gives (exec (.mldw 1 11 10) { s with xmrstart := 1 }) (fun t =>
      t.m[1] == [2 ^ 128 - 1, bytes [0x99, 0xAA, 0xBB, 0xCC, 0xDD, 0xEE, 0xFF], 0, 0] &&
        t.xmrstart == 0) ∧
    Refuses (exec (.mldw 1 11 10) { s with xmrstart := 2 }) .startRow ∧
    Refuses (exec (.mldd 1 11 10) (sized stateL 2 0 12)) .shape ∧
    trapped State.reset (.mldb 1 11 10) ∧
    Refuses (exec (.mldw 1 11 10) (sized (stateL.setX 10 0x1001) 1 0 4)) .misaligned := by decide +kernel

/-- L7 in every width. -/
theorem test_stores :
    let s := sized (((base.setM 0 [bytes [1, 2, 3, 4, 5, 6, 7, 8, 9], bytes [17, 18, 19, 20, 21, 22, 23, 24,
      25]]).setX 12 0x2000).setX 13 0x20) 2 0 8
    ∀ i ∈ [Instr.mstb 0 13 12, .msth 0 13 12, .mstw 0 13 12, .mstd 0 13 12, .msstb 0 13 12,
      .mssth 0 13 12, .msstw 0 13 12, .msstd 0 13 12],
      Gives (exec i s) fun t => t.m == s.m && t.mstatus.ms == 3 && t.mem == [(0x2000, 1), (0x2001, 2),
        (0x2002, 3), (0x2003, 4), (0x2004, 5), (0x2005, 6), (0x2006, 7), (0x2007, 8), (0x2020, 17),
        (0x2021, 18), (0x2022, 19), (0x2023, 20), (0x2024, 21), (0x2025, 22), (0x2026, 23), (0x2027, 24)] := by
  decide +kernel

/-- The layout of W1 to W3 and W6 (decision D28): register `r`, row `i` at `64r + 16i`. -/
def memW : Memory :=
  Memory.writeAll [] [(0x3000, 1), (0x3010, 2), (0x3040, 3), (0x307F, 4), (0x30F0, 5), (0x31FF, 6)]

/-- W1, W2: the whole-register loads of 1, 2, 4 and 8 registers in every width; those of 4 and 8 from
their last row on. -/
theorem test_whole_loads :
    let s := { base.setX 10 0x3000 with mem := memW }
    let top := fun (v : Row) => v <<< 120
    (∀ i ∈ [Instr.mld1mb 2 10, .mld1mh 2 10, .mld1mw 2 10, .mld1md 2 10], Gives (exec i s) fun t =>
      t.m[2] == [1, 2, 0, 0] && t.m[3] == s.m[3]) ∧
    (∀ i ∈ [Instr.mld2mb 2 10, .mld2mh 2 10, .mld2mw 2 10, .mld2md 2 10],
      Gives (exec i { s with xmrstart := 4 }) fun t =>
        t.m[2] == s.m[2] && t.m[3] == [3, 0, 0, top 4] && t.m[4] == s.m[4]) ∧
    (∀ i ∈ [Instr.mld4mb 4 10, .mld4mh 4 10, .mld4mw 4 10, .mld4md 4 10],
      Gives (exec i { s with xmrstart := 15 }) fun t => t.m[6] == s.m[6] && t.m[7] == [0, 0, 0, 5]) ∧
    (∀ i ∈ [Instr.mld8mb 0 10, .mld8mh 0 10, .mld8mw 0 10, .mld8md 0 10],
      Gives (exec i { s with xmrstart := 31 }) fun t =>
        t.m[0] == s.m[0] && t.m[7] == [0, 0, 0, top 6]) := by decide +kernel

/-- W3, W4, W5. -/
theorem test_whole_load_corners :
    let s : State := { ((base.setX 10 0x3000).setM 2 [7, 7, 7, 7]).setM 3 [8, 8, 8, 8] with mem := memW }
    Gives (exec (.mld2mw 2 10) { s with xmrstart := 5 }) (fun t =>
      t.m[2] == [7, 7, 7, 7] && t.m[3] == ([8, 0, 0, 4#512 <<< 120] : MReg)) ∧
    Refuses (exec (.mld2mb 1 10) s) .registerAlign ∧
    Refuses (exec (.mld2mb 2 10) { s with xmrstart := 8 }) .startRow := by decide +kernel

/-- The whole-register stores, with the layout of W6; those of 4 and 8 registers from their last row
on. -/
theorem test_whole_stores :
    let s := (((base.setM 4 [1, 2, 0, 0]).setM 5 [3, 0, 0, 4#512 <<< 120]).setM 7 [0, 0, 0, 5]).setX 20
      0x3000
    let is := fun (start : Word) i m =>
      Gives (exec i { s with xmrstart := start }) fun t => t.mem == m && t.m == s.m
    (∀ i ∈ [Instr.mst1mb 4 20, .mst1mh 4 20, .mst1mw 4 20, .mst1md 4 20],
      is 0 i [(0x3000, 1), (0x3010, 2)]) ∧
    (∀ i ∈ [Instr.mst2mb 4 20, .mst2mh 4 20, .mst2mw 4 20, .mst2md 4 20],
      is 4 i [(0x3040, 3), (0x307F, 4)]) ∧
    (∀ i ∈ [Instr.mst4mb 4 20, .mst4mh 4 20, .mst4mw 4 20, .mst4md 4 20], is 15 i [(0x30F0, 5)]) ∧
    (∀ i ∈ [Instr.mst8mb 0 20, .mst8mh 0 20, .mst8mw 0 20, .mst8md 0 20], is 31 i [(0x31F0, 5)]) := by
  decide +kernel

/-- An address map in which loads from `0x2004` on raise LoadAccessFault. -/
def mapT : MemMap :=
  { Config.openMap with
    regions := [{ base := 0x2004, size := 2 ^ 32, access := ⟨.accessFault, .ok, .ok⟩ }] }

/-- The state of T1. -/
def stateT : State :=
  sized { ((base.setM 1 [0xA0, 0xA1, 0xA2, 0xA3]).setX 10 0x1FF8).setX 11 8 with
    mem := Memory.writeAll [] [(0x1FF8, 1), (0x1FFF, 8), (0x2000, 0x21), (0x2003, 0x24)]
    cfg := { base.cfg with memMaps := { machine := mapT, supervisor := mapT, user := mapT } } } 3 0 8

/-- T1: the load traps in row 1. -/
theorem test_load_trap :
    Gives (exec (.mldw 1 11 10) stateT) (fun t => t.mcause == 5 && t.mepc == 0x1000 &&
      t.mtval == 0x2004 && t.xmrstart == 1 && t.mstatus.ms == 3 && t.pc == 0 && t.mem == stateT.mem &&
      t.mrow 1 0 == bytes [1, 0, 0, 0, 0, 0, 0, 8]) := by decide +kernel

/-- T2: it resumes at row 1. -/
theorem test_load_resumes :
    Gives (exec (.mldw 1 11 10) { stateT with
        cfg := base.cfg, xmrstart := 1
        m := (stateT.setM 1 [0x801, 0, 0, 0]).m
        mem := stateT.mem.writeAll [(0x2004, 0x25), (0x2008, 0x31)] })
      (fun t => t.m[1] == [0x801, bytes [0x21, 0, 0, 0x24, 0x25], bytes [0x31], 0] &&
        t.xmrstart == 0 && t.pc == 0x1004) := by decide +kernel

/-- Program 5, steps 1 and 12 (`sizeK = 4` to keep it small): the store traps in row 2 and resumes. -/
theorem test_store_trap :
    let map : MemMap := { Config.openMap with
      regions := [{ base := 0x5000, size := 0x1000, access := ⟨.ok, .accessFault, .ok⟩ }] }
    let s := sized (((base.setM 2 [0x20202020, 0x21212121, 0x22222222, 0x23232323]).setX 10 0x4FE0).setX
      11 0x10) 4 0 4
    let st : State := { s with
      cfg := { base.cfg with memMaps := { machine := map, supervisor := map, user := map } } }
    Gives (exec (.mstw 2 11 10) st) (fun t => t.mcause == 7 && t.mtval == 0x5000 && t.mepc == 0x1000 &&
      t.xmrstart == 2 && t.mem == [(0x4FE0, 0x20), (0x4FE1, 0x20), (0x4FE2, 0x20), (0x4FE3, 0x20),
        (0x4FF0, 0x21), (0x4FF1, 0x21), (0x4FF2, 0x21), (0x4FF3, 0x21)] && t.m == s.m) ∧
    Gives (exec (.mstw 2 11 10) { s with xmrstart := 2 }) (fun t => t.xmrstart == 0 &&
      t.mem == [(0x5000, 0x22), (0x5001, 0x22), (0x5002, 0x22), (0x5003, 0x22), (0x5010, 0x23),
        (0x5011, 0x23), (0x5012, 0x23), (0x5013, 0x23)]) := by decide +kernel

/-- An address map whose first 16 bytes from `0x2000` on have the given access. -/
def special (s : State) (a : Access) : State :=
  let m : MemMap := { Config.openMap with regions := [{ base := 0x2000, size := 16, access := a }] }
  { s with cfg := { s.cfg with memMaps := ⟨m, m, m⟩ } }

/-- 20_memory.md R87: a load where writes have side effects, and a store where reads have. -/
theorem test_side_effects :
    let s := sized (base.setX 10 0x2000) 1 0 1
    Refuses (exec (.mldb 1 11 10) (special s ⟨.ok, .sideEffects, .ok⟩)) .sideEffects ∧
    Refuses (exec (.mstb 1 11 10) (special s ⟨.sideEffects, .ok, .ok⟩)) .sideEffects := by decide +kernel

/-- 60_exceptions.md R427: a misaligned element inside a page reports its address; one that straddles a
page may report any of its byte addresses. -/
theorem test_reported_address :
    let t : Transfer := { rows := 1, rowBytes := 8, esize := 4, addr := fun _ c => 0x1FFA + c }
    let s := special { base with cfg := { base.cfg with misalignedPolicy := .split } } ⟨.pageFault, .ok, .ok⟩
    s.elemFaults false t 0 0 = [] ∧
    s.elemFaults false t 0 1 = [(.loadPage, 0x1FFE), (.loadPage, 0x1FFF), (.loadPage, 0x2000),
      (.loadPage, 0x2001)] ∧
    s.elemFaults false { t with addr := fun _ c => 0x2001 + c } 0 0 = [(.loadPage, 0x2001)] := by
  decide +kernel

/-! ### CSRs, traps and whole steps -/

/-- The CSR instruction with the given fields. -/
def csr (op : CsrOp) (imm : Bool) (rd : XIdx) (addr : BitVec 12) (src : XIdx) (s : State) :
    Host.Outcome State Fault Refusal :=
  execHost (.csr op imm rd addr src) 0 s

/-- G6 to G11. -/
theorem test_csr :
    let s := sized base 4 0 16
    Gives (csr .write false 0 0xCC1 5 s) (fun t => t.mcause == 2) ∧
    Gives (csr .set false 5 0xCC1 0 s) (fun t => t.xval 5 == 0x00100004 && t.mstatus.ms == 1) ∧
    Gives (csr .write true 0 0x801 5 s) (fun t => t.xmxrm == 2 && t.xmxsat && t.mstatus.ms == 3 &&
      t.csrRead .xmcsr == 5 && t.csrRead .xmxrm == 2 && t.csrRead .xmxsat == 1) ∧
    Gives (csr .write true 0 0x801 2 { s with xmxsat := true }) (fun t => t.xmxrm == 1 && !t.xmxsat) ∧
    Refuses (csr .write true 0 0x801 8 s) .csrBits ∧ Refuses (csr .write true 0 0x802 4 s) .csrBits ∧
    Gives (csr .write true 0 0x800 2 s) (fun t => t.xmrstart == 2) := by decide +kernel

/-- G2, G3, G12 and program 4. -/
theorem test_csr_gate :
    let wide : State := { base with cfg := { base.cfg with mlen := .m256 } }
    ([0x800#12, 0x802, 0xCC0, 0xCC1, 0xCC2, 0xCC3, 0xCC4].all fun a =>
      Gives (csr .set false 5 a 0 State.reset) fun t => t.mcause == 2) ∧
    Gives (csr .write true 0 0x801 5 State.reset) (fun t => t.mstatus.ms == 3) ∧
    Gives (csr .set false 5 0xCC3 0 base) (fun t => t.xval 5 == 16) ∧
    Gives (csr .set false 5 0xCC2 0 base) (fun t => t.xval 5 == 64) ∧
    Gives (csr .set false 5 0xCC3 0 wide) (fun t => t.xval 5 == 32) ∧
    Gives (csr .set false 5 0xCC2 0 wide) (fun t => t.xval 5 == 256) := by decide +kernel

/-- 60_exceptions.md R432, R433: a trap from user mode that is delegated, and the return. -/
theorem test_trap_and_return :
    let s : State := { base with priv := .u, medeleg := 4, stvec := 0x3000, pc := 0x1234 }
    let t := s.illegal 7
    t.priv = .s ∧ t.sepc = 0x1234 ∧ t.scause = 2 ∧ t.stval = 7 ∧ t.pc = 0x3000 ∧
    Gives (execHost .sret 0 t) (fun u => u.priv == .u && u.pc == 0x1234) := by decide +kernel

/-- The host places a word where the next step fetches: program 1, `lui x10, 0x40` and `mcfg x10`. -/
theorem test_fetch :
    Gives (step (State.reset.withFetchWord 32 0x00040537)) (fun t => t.xval 10 == 0x40000 &&
      t.pc == 0x1004) ∧
    Gives (step ((base.setX 10 0x40202).withFetchWord 32 0xFE05002B)) (fun t =>
      t.sizeM == 2 && t.sizeN == 2 && t.sizeK == 4 && t.pc == 0x1004) ∧
    Gives (step (State.reset.withFetchWord 32 0xFE05002B)) (fun t => t.mcause == 2 &&
      t.mtval == 0xFE05002B) := by decide +kernel

/-- Program 2: the branch back, and program 1: `addi`. -/
theorem test_host :
    Gives (execHost (.bne 5 0 0xFF4) 0 { base.setX 5 1 with pc := 0x1038 }) (fun t => t.pc == 0x1020) ∧
    Gives (execHost (.bne 5 0 0xFF4) 0 { base with pc := 0x1038 }) (fun t => t.pc == 0x103C) ∧
    Gives (execHost (.addi 10 10 0x202) 0 (base.setX 10 0x40000)) (fun t => t.xval 10 == 0x40202) := by
  decide +kernel

/-- 60_exceptions.md R439: each matrix instruction retires as one, and one that traps as none (log 34); `instret`
is in two halves on RV32. -/
theorem test_instret :
    let s : State := { base with instret := 0x5FFFFFFFF }
    let w : State := { s with cfg := { s.cfg with xlen := .x32 } }
    Gives (exec (.mcfgmi 2) s) (fun t => t.instret == 0x600000000) ∧
    Gives (exec (.mstb 0 1 2) s) (fun t => t.instret == 0x600000000) ∧
    Gives (exec (.mcfgmi 2) State.reset) (fun t => t.mcause == 2 && t.instret == 0) ∧
    Gives (csr .set false 5 0xC02 0 s) (fun t => t.xval 5 == 0x5FFFFFFFF && t.instret == 0x600000000) ∧
    Gives (csr .set false 5 0xC02 0 w) (fun t => t.xval 5 == 0xFFFFFFFF) ∧
    Gives (csr .set false 5 0xC82 0 w) (fun t => t.xval 5 == 5) ∧
    Gives (csr .set false 5 0xC82 0 s) (fun t => t.mcause == 2) ∧
    Gives (csr .write false 5 0xC02 0 s) (fun t => t.mcause == 2 && t.instret == 0x5FFFFFFFF) ∧
    Gives (csr .set false 0 0xC00 0 s) (fun t => t.pc == 0x1004 && t.draws == 1) := by decide +kernel

/-- 47_host_interface.md R408: `ECALL` from the three levels and `EBREAK` trap, with the family's codes
(log 32); `WFI` and `SFENCE.VMA` only advance, the latter not in user mode. -/
theorem test_system :
    let level := fun (p : Priv) => ({ base with priv := p, mtvec := 0x4000 } : State)
    let trap := fun i p code tval => Gives (execHost i 0 (level p)) fun t =>
      t.mcause == code && t.mtval == tval && t.mepc == 0x1000 && t.pc == 0x4000 && t.mstatus.mpp == p
    trap .ecall .u 8 0 ∧ trap .ecall .s 9 0 ∧ trap .ecall .m 11 0 ∧ trap .ebreak .m 3 0x1000 ∧
    Gives (execHost .wfi 0 base) (· == base.advance) ∧
    Gives (execHost (.sfenceVma 1 2) 0 (level .s)) (· == (level .s).advance) ∧ trap (.sfenceVma 1 2) .u 2 0 := by
  decide +kernel

/-- 70_reset_and_hazards.md R467, row 1: another `func3` in the matrix opcode space. -/
theorem test_func3_reserved :
    let s := State.withFetchWord base 32 0x0000102B
    Refuses (step s) .func3 ∧
    Gives (step { s with cfg := { s.cfg with reservedPolicy := .illegalInstruction } })
      (fun t => t.mcause == 2 && t.mepc == 0x1000) := by decide +kernel

/-! ### For every statement with hypotheses, a state and operands that meet them -/

theorem zero_lt (l : Mlen) : (0 : Row).toNat < 2 ^ l.bits := by
  have h : (0 : Row).toNat = 0 := by decide +kernel
  rw [h]
  exact Nat.two_pow_pos _

/-- The start state with `MS = 1`, `FS = 1` meets the invariant. -/
theorem base_inv : base.Inv where
  mem_wf := by decide
  mem_below := by decide
  reg_rows := by decide
  row_bits := by
    intro r row h
    have hz : base.m[r.toNat]'r.isLt = zeroReg := by simp [base, State.reset]
    rw [hz] at h
    obtain rfl : row = 0 := List.eq_of_mem_replicate h
    exact zero_lt _
  x_bits := by intro i; simp [base, State.reset, Config.standard, Xlen.bits]
  x_zero := by simp [base, State.reset]
  words := by
    intro w hw
    simp only [State.wordRegs, base, State.reset, List.mem_cons, List.not_mem_nil, or_false] at hw
    rcases hw with rfl | rfl | rfl | rfl | rfl | rfl | rfl | rfl | rfl | rfl | rfl | rfl <;>
      simp [base, State.reset, Config.standard, Xlen.bits]

/-- An outcome that the kernel evaluates to a next state is one. -/
theorem runs {o : Host.Outcome State Fault Refusal} (h : Gives o fun _ => true) : ∃ t, o = .next t := by
  cases o with
  | next t => exact ⟨t, rfl⟩
  | fault f => cases f
  | refused r => exact absurd h (by simp [Gives])

/-- A word placed where a state fetches. -/
def fetching (w : BitVec 32) (s : State) : State := s.withFetchWord 32 w.toNat

theorem witness_EncodeDecode : decode 0x1E08002B#32 = .ok (.mcfgmi 2) := by decide

/-- One word for each clause: `uop = 110`; the configuration indices 3 and 6; `func` 10 with `uop` 0 and
`func` 15 with `uop` 3. -/
theorem witness_UnassignedReserved :
    let inSpace := fun (w : BitVec 32) =>
      w.extractLsb' 0 7 == 0b0101011#7 && w.extractLsb' 12 3 == 0#3
    [0x0C00002B#32, 0x3E00002B, 0x6E00002B, 0xA000002B, 0xF600002B].all inSpace ∧
    (0x0C00002B#32).extractLsb' 25 3 = 6#3 ∧
    (0x3E00002B#32).extractLsb' 25 3 = 7#3 ∧ (0x3E00002B#32).extractLsb' 28 3 = 3#3 ∧
    (0x6E00002B#32).extractLsb' 25 3 = 7#3 ∧ (0x6E00002B#32).extractLsb' 28 3 = 6#3 ∧
    (0xA000002B#32).extractLsb' 25 3 = 0#3 ∧ (0xA000002B#32).extractLsb' 28 4 = 10#4 ∧
    (0xF600002B#32).extractLsb' 25 3 = 3#3 ∧ (0xF600002B#32).extractLsb' 28 4 = 15#4 := by decide

/-- Both clauses; in the second state a fetched byte is one of two, and either decodes. -/
theorem witness_StepRunsDecoded :
    let s := fetching 0x1E08002B base
    let t : State := { s with stale := [(0x1002, 0x0C)] }
    s.fetchFault = none ∧ s.fetchCoherent = true ∧
    decode (wordOfBytes (s.byteAt (s.fetchAddr 0)) (s.byteAt (s.fetchAddr 1))
      (s.byteAt (s.fetchAddr 2)) (s.byteAt (s.fetchAddr 3))) = .ok (.mcfgmi 2) ∧
    decode s.fetchWord = .ok (.mcfgmi 2) ∧
    t.fetchFault = none ∧ t.fetchCoherent = false ∧ t.fetchOptions (t.fetchAddr 2) = [0x08, 0x0C] ∧
    decode (wordOfBytes 0x2B 0 0x08 0x1E) = .ok (.mcfgmi 2) ∧
    decode (wordOfBytes 0x2B 0 0x0C 0x1E) = .ok (.mcfgmi 3) := by decide +kernel

/-- A reserved word and a word with another `func3`, under both policies, and a host instruction. -/
theorem witness_StepOtherWords :
    let other := fun (s : State) => { s with cfg := { s.cfg with reservedPolicy := .illegalInstruction } }
    let w := fetching 0x0C00002B base
    let f := fetching 0x0000102B base
    let h := fetching 0x00040537 base
    (∀ s ∈ [w, other w], s.fetchFault = none ∧ decode s.fetchWord = .error (.reserved .uop)) ∧
    (∀ s ∈ [f, other f], s.fetchFault = none ∧ s.fetchWord.extractLsb' 0 7 = 0b0101011#7 ∧
      s.fetchWord.extractLsb' 12 3 ≠ 0#3) ∧
    w.cfg.reservedPolicy = .refuse ∧ (other w).cfg.reservedPolicy = .illegalInstruction ∧
    h.fetchFault = none ∧ decode h.fetchWord = .error .notMatrix ∧
    decodeHost h.fetchWord = some (.lui 10 0x40) := by decide +kernel

theorem witness_FetchExceptions :
    let s : State := { base with pc := 0x1003 }
    let m : MemMap := { regions := [], elsewhere := ⟨.ok, .ok, .accessFault⟩ }
    let t : State := { base with cfg := { base.cfg with memMaps := ⟨m, m, m⟩ } }
    s.cfg.compressed = false ∧ s.pc.toNat % 4 ≠ 0 ∧ t.cfg.compressed = false ∧ t.pc.toNat % 4 = 0 ∧
    t.pc.toNat < 2 ^ t.cfg.xlen.bits ∧ t.fetchReach t.pc.toNat = .accessFault := by decide +kernel

/-- A state that meets the invariant steps to a next state. -/
theorem witness_InvStep : ∃ s t : State, s.Inv ∧ step s = .next t := by
  let m : MemMap := { regions := [], elsewhere := ⟨.ok, .ok, .accessFault⟩ }
  let s : State := { base with cfg := { base.cfg with memMaps := ⟨m, m, m⟩ } }
  obtain ⟨t, ht⟩ := runs (o := step s) (by decide +kernel)
  have h := base_inv
  refine ⟨s, t, ?_, ht⟩
  exact ⟨h.mem_wf, h.mem_below, h.reg_rows, h.row_bits, h.x_bits, h.x_zero, h.words⟩

theorem witness_ConstantsKept :
    (∃ t, step (fetching 0x1E08002B base) = .next t) ∧ csrAt base.cfg 0xCC2 = some .xmregsize ∧
    csrAt base.cfg 0xCC3 = some .xmlenb ∧ base.mstatus.ms ≠ 0#2 ∧ CsrOp.set ≠ .write :=
  ⟨runs (by decide +kernel), by decide, by decide, by decide, by decide⟩

/-- An instruction that is no store completes, and one that is. -/
theorem witness_NoIntegerWrite :
    (∃ t, exec (.maddSMm 3 2 1) base = .next t) ∧ isStore (.maddSMm 3 2 1) = false ∧
    (∃ t, exec (.mstb 0 1 2) base = .next t) ∧ isStore (.mstb 0 1 2) = true :=
  ⟨runs (by decide +kernel), by decide, runs (by decide +kernel), by decide⟩

/-- `madd` sets no flag; both flags are set before it. -/
theorem witness_FlagWriters :
    let s : State := { base with xmxsat := true, fflags := 1 }
    (∃ t, exec (.maddSMm 3 2 1) s = .next t) ∧ isClip (.maddSMm 3 2 1) = false ∧
    isFloatMul (.maddSMm 3 2 1) = false ∧ s.xmxsat = true ∧ s.fflags.getLsbD 0 = true :=
  ⟨runs (by decide +kernel), by decide, by decide, rfl, by decide⟩

theorem witness_RegisterWriters :
    (∃ t, exec (.mstb 0 1 2) base = .next t) ∧ (isStore (.mstb 0 1 2) || isConfig (.mstb 0 1 2)) = true ∧
    (∃ t, exec (.mcfgmi 2) base = .next t) ∧ (isStore (.mcfgmi 2) || isConfig (.mcfgmi 2)) = true ∧
    (∃ t, exec (.maddSMm 3 2 1) base = .next t) ∧ isConfig (.maddSMm 3 2 1) = false :=
  ⟨runs (by decide +kernel), by decide, runs (by decide +kernel), by decide, runs (by decide +kernel), by decide⟩

theorem witness_OutcomesOfExec :
    (∃ t, exec (.maddSMm 3 2 1) base = .next t) ∧ (∃ t, exec (.maddSMm 3 2 1) State.reset = .next t) ∧
    isLoad (.maddSMm 3 2 1) = false ∧ isStore (.maddSMm 3 2 1) = false :=
  ⟨runs (by decide +kernel), runs (by decide +kernel), by decide, by decide⟩

/-- With `MS` Off, each of the eight CSRs has its address; the largest value for `xmcsr`, by each form. -/
theorem witness_OffGate :
    State.reset.mstatus.ms = 0#2 ∧
    (∀ p ∈ [(0x800#12, Csr.xmrstart), (0x802, .xmxrm), (0xCC0, .xmxsat), (0xCC1, .xmsize),
      (0xCC2, .xmregsize), (0xCC3, .xmlenb), (0xCC4, .xmisa), (0x801, .xmcsr)],
      csrAt State.reset.cfg p.1 = some p.2) ∧
    CsrOp.set ≠ .write ∧ CsrOp.clear ≠ .write ∧ (7 : XIdx) ≠ 0 ∧
    ∀ op ∈ [CsrOp.write, .set, .clear],
      (csrMade op (State.reset.csrRead .xmcsr) (State.reset.csrArg true 7)).toNat < 8 := by decide

/-- A state with every optional feature absent. -/
theorem witness_FeatureGate :
    let s : State := { base with cfg := { base.cfg with features := 0 } }
    ∀ b ∈ [0, 2, 3, 4, 5, 6, 7, 8, 9], s.cfg.xmisa.getLsbD b = false := by decide

/-- `FS` Off; `frm` at 5 and at 7. -/
theorem witness_FloatGates :
    State.reset.mstatus.fs = 0#2 ∧ 5 ≤ ({ base with frm := 5 } : State).frm.toNat ∧
    5 ≤ ({ base with frm := 7 } : State).frm.toNat := by decide

/-- A trap from machine mode; one from user mode that is not delegated; one that is; and a vectored
interrupt. -/
theorem witness_TrapEntry :
    let s : State := { base with priv := .u, medeleg := 4, mideleg := 2, stvec := 0x3001 }
    base.priv = .m ∧ s.priv ≠ .m ∧ s.medeleg.getLsbD 5 = false ∧ s.medeleg.getLsbD 2 = true ∧
    s.mideleg.getLsbD 1 = true ∧ s.stvec.extractLsb' 0 2 = 1#2 := by decide

theorem witness_TrapReturn :
    ({ base with priv := .s } : State).priv ≠ .m ∧ ({ base with priv := .u } : State).priv = .u := by
  decide

/-- The hypotheses common to the RESERVED statements. -/
def Common (s : State) : Prop :=
  s.ready ∧ s.cfg.xmisa = 0x3FF#10 ∧ s.floatReady ∧ s.cfg.reservedPolicy = .refuse

theorem witness_StartRowReserved :
    let s : State := { base with xmrstart := 1 }
    isLoad (.mcfgmi 2) = false ∧ isStore (.mcfgmi 2) = false ∧ s.mstatus.ms ≠ 0#2 ∧
    s.cfg.xmisa = 0x3FF#10 ∧ s.floatReady ∧ s.xmrstart ≠ 0 ∧ s.cfg.reservedPolicy = .refuse := by
  simp only [State.floatReady]; decide

/-- The destinations of the three clauses: single; with operand B a pair; a pair. -/
theorem witness_OverlapReserved :
    Common base ∧ ((1 : MIdx) = 1 ∨ (1 : MIdx) = 2) ∧
    ((2 : MIdx).toNat % 2 = 0 ∧ (3 : MIdx) = 2 + 1#3) ∧ ((0 : MIdx).toNat % 2 = 0 ∧ (0 : MIdx) + 1#3 = 1) := by
  simp only [Common, State.ready, State.floatReady]; decide

theorem witness_OddPairReserved : Common base ∧ (7 : MIdx).toNat % 2 = 1 := by
  simp only [Common, State.ready, State.floatReady]; decide

/-- For each clause a size just outside its limit, with legal operands. -/
theorem witness_ShapeReserved :
    matmulOk 0 2 1 = true ∧ matmulPairOk 4 2 1 = true ∧ matmulBPairOk 0 2 1 = true ∧
    (∀ s ∈ [sized base 5 1 4, sized base 1 1 17, sized base 1 5 4, sized base 1 1 3, sized base 1 9 4,
      sized base 1 1 6, sized base 1 1 4], Common s ∧ (Src2.mm 1).rowOk s = true ∧ (Src2.mvi 1 3).rowOk s = true) ∧
    base.cfg.rows < (sized base 5 1 4).sM ∧ base.cfg.mlenb < (sized base 1 1 17).sK ∧
    base.cfg.rows < (sized base 1 5 4).sN ∧ (sized base 1 1 3).sK % 2 = 1 ∧
    2 * base.cfg.rows < (sized base 1 9 4).sN ∧ (sized base 1 1 6).sK % 4 ≠ 0 ∧
    (sized base 1 1 4).sK % 8 ≠ 0 := by
  simp only [Common, State.ready, State.floatReady]; decide

theorem witness_RowIndexReserved :
    let s := base.setX 9 4
    s.ready ∧ s.has 7 ∧ s.has 6 ∧ s.cfg.reservedPolicy = .refuse ∧
    s.cfg.rows ≤ (s.xval (8#5 + (1 : XcIdx).setWidth 5)).toNat ∧ s.cfg.rows ≤ (4 : BitVec 3).toNat := by
  simp only [State.ready, State.has]; decide

/-- A size, a start row and a register number just outside the limits of each clause. -/
theorem witness_TransferReserved :
    let s : State := { sized base 2 0 8 with xmrstart := 2 }
    (∀ u ∈ [sized base 5 0 8, sized base 1 0 24, sized base 1 0 1, sized base 1 0 2, sized base 1 0 4, s],
      u.mstatus.ms ≠ 0#2 ∧ u.cfg.reservedPolicy = .refuse) ∧
    base.cfg.rows < (sized base 5 0 8).sM ∧ base.cfg.mlenb < (sized base 1 0 24).sK ∧
    (sized base 1 0 1).sK % 2 ≠ 0 ∧ (sized base 1 0 2).sK % 4 ≠ 0 ∧ (sized base 1 0 4).sK % 8 ≠ 0 ∧
    s.xmrstart ≠ 0 ∧ s.sM ≤ s.xmrstart.toNat ∧ (∀ e ∈ [1, 2, 4, 8], s.validPW (8 * e) = true) ∧
    (∀ n ∈ [1, 2, 4, 8], (n * base.cfg.rows ≤ (BitVec.ofNat 64 (4 * n)).toNat) ∧
      BitVec.ofNat 64 (4 * n) ≠ 0 ∧ (0 : MIdx).toNat % n = 0) ∧
    (1 : MIdx).toNat % 2 ≠ 0 ∧ (2 : MIdx).toNat % 4 ≠ 0 ∧ (4 : MIdx).toNat % 8 ≠ 0 := by decide

/-- The last row in the register and in the immediate. -/
theorem witness_MovesComplete :
    (base.setX 9 3).ready ∧ ((base.setX 9 3).xval (8#5 + (1 : XcIdx).setWidth 5)).toNat < base.cfg.rows ∧
    (3 : BitVec 3).toNat < base.cfg.rows ∧ base.cfg.xlen.bits * (1 + 1) ≤ base.cfg.mlen.bits := by
  simp only [State.ready]; decide

/-- The largest value that fits each field, and the smallest that does not. -/
theorem witness_ConfigComplete :
    (∀ v : Word, (base.setX 10 v).mstatus.ms ≠ 0#2 ∧ (base.setX 10 v).xmrstart = 0 ∧
      (base.setX 10 v).cfg.reservedPolicy = .refuse) ∧
    (∀ p ∈ [(0xFFFF, 16), (0xFF, 8), (0xFFFFFFFF, 32)], ((base.setX 10 p.1).xval 10).toNat < 2 ^ p.2) ∧
    ∀ p ∈ [(0x10000, 16), (0x100, 8), (0x100000000, 32)], 2 ^ p.2 ≤ ((base.setX 10 p.1).xval 10).toNat := by
  exact ⟨fun _ => ⟨show base.mstatus.ms ≠ 0#2 by decide, rfl, rfl⟩, by decide, by decide⟩

/-- The hypotheses of the pointwise, shift and clip statements, for both widths, at the largest and the
empty shape; the forms with a row at its last row. -/
theorem witness_pointwise :
    (∀ s ∈ [sized base 4 0 16, sized base 0 0 0], s.mstatus.ms ≠ 0#2 ∧ s.xmrstart = 0 ∧
      s.cfg.xmisa.getLsbD 7 = true ∧ s.cfg.xmisa.getLsbD 6 = true ∧ s.validPW 32 = true ∧
      s.validPW 64 = true) ∧
    (∀ b ∈ [Src2.mm 1, .mvx 1 1, .mvi 1 3, .mx 2], b.rowOk (base.setX 9 3) = true) := by decide

/-- Both widths of the host, for the scalar operand. -/
theorem witness_SecondOperand :
    base.cfg.xlen = .x64 ∧ ({ base.cfg with xlen := .x32 } : Config).xlen = .x32 := by decide

theorem witness_RoundingIncrement : 0 < 1 ∧ 1 < 32 ∧ 0 < 31 ∧ 31 < 32 := by decide

/-- The hypotheses of the multiplications, at the largest and the empty shape. -/
theorem witness_matmul :
    (∀ s ∈ [sized base 4 4 16, sized base 0 0 0], s.mstatus.ms ≠ 0#2 ∧ s.xmrstart = 0 ∧
      s.mstatus.fs ≠ 0#2 ∧ s.frm.toNat < 5 ∧ s.cfg.xmisa = 0x3FF#10 ∧
      ∀ w ∈ [4, 8, 16, 32, 64], s.validMM w s.cfg.rows = true) ∧
    (sized base 4 8 16).validMM 16 (2 * base.cfg.rows) = true ∧
    (∀ b ∈ [0, 1, 2, 3, 4, 5, 8, 9], (0x3FF#10).getLsbD b = true) ∧
    (4 : MIdx).toNat % 2 = 0 ∧ (4 : MIdx) ≠ 1 ∧ (4 : MIdx) ≠ 2 ∧ (4 : MIdx) + 1#3 ≠ 1 ∧
    (4 : MIdx) + 1#3 ≠ 2 ∧ (2 : MIdx).toNat % 2 = 0 ∧ (4 : MIdx) ≠ 2 + 1#3 := by decide

/-- Terms for each clause of the dot product: a NaN; an invalid product; infinities of both signs; one
infinity. -/
theorem witness_DotProperties :
    let u := fun (v : Word) => (floatFormats .fmmaccS false).1.unpack v.toNat
    u 0x7FC00000 = .nan ∧ u 0x7F800000 = .inf false ∧ u 0xFF800000 = .inf true ∧
    (u 0x7F800000).mul (u 0) = .nan ∧ (u 0x7F800000).mul (u 0x3F800000) = .inf false ∧
    (u 0x7F800000).mul (u 0xBF800000) = .inf true := by decide

/-- For each clause: no elements; 1 + 1 * 1 and -1 + 1 * 1 as multiples of 1; terms of one sign; and the square
of the largest finite number. -/
theorem witness_FiniteDot :
    let f := (floatFormats .fmmaccS false).2
    let one := f.unpack 0x3F800000
    let minus := f.unpack 0xBF800000
    let square := (f.unpack 0x7F7FFFFF).mul (f.unpack 0x7F7FFFFF)
    f.unpack 0x7F800001 = .nan ∧ f.unpack 0xFF800000 ≠ .nan ∧ 0xFFFFFFFF < 2 ^ (1 + f.eb + f.fb) ∧
    one = .fin false 8388608 (-23) ∧ minus = .fin true 8388608 (-23) ∧
    square = .fin false (16777215 * 16777215) 208 ∧
    one.number = 1 ∧ (one.mul one).number = 1 ∧ minus.number = -1 ∧ f.bias = 127 ∧ f.fb = 23 ∧
    (f.unpack 0).number = 0 ∧ (2 : ℚ) ^ (127 + 1) ≤ |square.number| := by
  refine ⟨by decide, by decide, by decide, by decide, by decide, by decide, ?_⟩
  have h1 : binary32.unpack 0x3F800000 = .fin false 8388608 (-23) := by decide
  have h2 : binary32.unpack 0xBF800000 = .fin true 8388608 (-23) := by decide
  have h3 : (FVal.fin false 8388608 (-23)).mul (.fin false 8388608 (-23)) =
    .fin false 70368744177664 (-46) := by decide
  have h4 : (binary32.unpack 0x7F7FFFFF).mul (binary32.unpack 0x7F7FFFFF) =
    .fin false (16777215 * 16777215) 208 := by decide
  have h5 : binary32.unpack 0 = .fin false 0 (-149) := by decide
  simp only [floatFormats, h1, h2, h3, h4, h5, FVal.number]
  refine ⟨?_, ?_, ?_, by decide, rfl, ?_, ?_⟩ <;> norm_num

theorem witness_FinalRounding : (4 : BitVec 3).toNat < 5 ∧ 0 < 1 := by decide

/-- A transfer reaches memory where every byte is admitted and its elements are aligned or split. -/
theorem reachable_base (s : State) (hc : s.cfg.memMaps = base.cfg.memMaps) (store : Bool) (t : Transfer)
    (ha : ∀ q k, t.addr q (k * t.esize) % t.esize = 0 ∨ s.cfg.misalignedPolicy = .split) :
    s.reachable store t := by
  intro q k _ _ _
  refine ⟨ha q k, fun b _ => ?_⟩
  unfold State.reach State.writeReach State.readReach mapFor
  rw [hc]
  cases store <;> cases s.dataPriv <;> rfl

/-- The transfers of the load and store statements: every width, at address 0 with stride 16; four rows
of 16 bytes, from row `start` on. -/
def moving (start : Word) : State :=
  { sized (base.setX 11 16) 4 0 16 with xmrstart := start }

theorem moving_aligned (start : Word) (e : Nat) (he : e ∈ [1, 2, 4, 8]) (n : Nat) (q k : Nat) :
    ((moving start).shaped e 10 11).addr q (k * e) % e = 0 ∧
    ((moving start).whole n e 10).addr q (k * e) % e = 0 := by
  have h10 : (moving start).xval 10 = 0 := rfl
  have h11 : (moving start).xval 11 = 16 := rfl
  have hx : (moving start).cfg.xlen.bits = 64 := rfl
  have hm : (moving start).cfg.mlenb = 16 := show base.cfg.mlenb = 16 by decide
  simp only [State.shaped, State.whole, State.ea, State.wholeEa, h10, h11, hx, hm]
  have h16 : (16 : Word).toNat = 16 := rfl
  have h0 : (0 : Word).toNat = 0 := rfl
  rw [h16, h0]
  simp only [List.mem_cons, List.not_mem_nil, or_false] at he
  rcases he with rfl | rfl | rfl | rfl <;> omega

/-- LoadsComplete, StoresComplete: every width, from row 0, row 1 and the last row. -/
theorem witness_ShapedComplete :
    ∀ start ∈ [(0 : Word), 1, 3], ∀ e ∈ [1, 2, 4, 8], ∀ store : Bool,
      (moving start).mem.wf = true ∧ (moving start).mstatus.ms ≠ 0#2 ∧
      (moving start).validPW (8 * e) = true ∧ (moving start).startsIn (moving start).sM ∧
      (moving start).reachable store ((moving start).shaped e 10 11) := by
  intro start hs e he store
  refine ⟨rfl, show base.mstatus.ms ≠ 0#2 by decide, ?_, ?_,
    reachable_base (moving start) rfl _ _ fun q k => .inl (moving_aligned start e he 0 q k).1⟩
  · have h : (sized (base.setX 11 16) 4 0 16).validPW (8 * e) = true := by
      simp only [List.mem_cons, List.not_mem_nil, or_false] at he
      rcases he with rfl | rfl | rfl | rfl <;> decide
    exact h
  · simp only [List.mem_cons, List.not_mem_nil, or_false] at hs
    rcases hs with rfl | rfl | rfl <;> simp only [State.startsIn] <;> decide

/-- WholeLoadsComplete, WholeStoresComplete: every count and width; register 0 starts any group. -/
theorem witness_WholeComplete :
    ∀ start ∈ [(0 : Word), 1, 3], ∀ n ∈ [1, 2, 4, 8], ∀ e ∈ [1, 2, 4, 8], ∀ store : Bool,
      (moving start).mem.wf = true ∧ (moving start).mstatus.ms ≠ 0#2 ∧ (0 : MIdx).toNat % n = 0 ∧
      (moving start).startsIn (n * (moving start).cfg.rows) ∧
      (moving start).reachable store ((moving start).whole n e 10) := by
  intro start hs n hn e he store
  refine ⟨rfl, show base.mstatus.ms ≠ 0#2 by decide, ?_, ?_,
    reachable_base (moving start) rfl _ _ fun q k => .inl (moving_aligned start e he n q k).2⟩
  · exact Nat.zero_mod n
  · simp only [List.mem_cons, List.not_mem_nil, or_false] at hs hn
    rcases hs with rfl | rfl | rfl <;> rcases hn with rfl | rfl | rfl | rfl <;>
      simp only [State.startsIn] <;> decide

/-- The transfer traps in row `row`. -/
def trapsIn (s : State) (store : Bool) (t : Transfer) (row : Nat) : Bool :=
  match s.trouble store t with
  | some (.faults r _) => r == row
  | _ => false

theorem reports_of_trapsIn {s : State} {store : Bool} {t : Transfer} {row : Nat}
    (h : trapsIn s store t row) : ∃ reports, s.trouble store t = some (.faults row reports) := by
  unfold trapsIn at h
  split at h
  · rename_i r reports hr
    exact ⟨reports, hr.trans (by rw [eq_of_beq h])⟩
  · exact absurd h (by decide)

/-- The state of T1 in each width, whose load traps in row 1; and whole-register loads of each count and
width, which trap in row 1; one of two registers traps in row 4, the first of its second register. -/
theorem witness_LoadTraps :
    let s := stateT.setX 10 0x1FF0
    let t := stateT.setX 10 0x1FC0
    stateT.mstatus.ms ≠ 0#2 ∧ stateT.startsIn stateT.sM ∧ s.xmrstart = 0 ∧
    stateT.trouble false (stateT.shaped 4 10 11) = some (.faults 1 [(.loadAccess, 0x2004)]) ∧
    (∀ e ∈ [1, 2, 4, 8], stateT.validPW (8 * e) = true ∧
      ∃ reports, stateT.trouble false (stateT.shaped e 10 11) = some (.faults 1 reports)) ∧
    (∀ n ∈ [1, 2, 4, 8], ∀ e ∈ [1, 2, 4, 8], (0 : MIdx).toNat % n = 0 ∧
      ∃ reports, s.trouble false (s.whole n e 10) = some (.faults 1 reports)) ∧
    ∃ reports, t.trouble false (t.whole 2 4 10) = some (.faults 4 reports) := by
  have h : ∀ e ∈ [1, 2, 4, 8], stateT.validPW (8 * e) = true ∧
      trapsIn stateT false (stateT.shaped e 10 11) 1 := by decide +kernel
  have h' : ∀ n ∈ [1, 2, 4, 8], ∀ e ∈ [1, 2, 4, 8], (0 : MIdx).toNat % n = 0 ∧
      trapsIn (stateT.setX 10 0x1FF0) false ((stateT.setX 10 0x1FF0).whole n e 10) 1 := by decide +kernel
  exact ⟨by decide, .inl rfl, rfl, by decide +kernel,
    fun e he => ⟨(h e he).1, reports_of_trapsIn (h e he).2⟩,
    fun n hn e he => ⟨(h' n hn e he).1, reports_of_trapsIn (h' n hn e he).2⟩,
    reports_of_trapsIn (by decide +kernel)⟩

/-- An address map in which stores to `0x5000` on raise StoreAccessFault. -/
def mapS : MemMap :=
  { Config.openMap with
    regions := [{ base := 0x5000, size := 0x1000, access := ⟨.ok, .accessFault, .ok⟩ }] }

/-- Program 5: the store traps in row 2, in each width; so does a whole-register store of each count. -/
theorem witness_StoreTraps :
    let s : State := { sized ((base.setX 10 0x4FE0).setX 11 0x10) 4 0 16 with
      cfg := { base.cfg with memMaps := ⟨mapS, mapS, mapS⟩ } }
    s.mem.wf = true ∧ s.mstatus.ms ≠ 0#2 ∧ s.startsIn s.sM ∧
    s.trouble true (s.shaped 4 10 11) =
      some (.faults 2 [(.storeAccess, 0x5000), (.storeAccess, 0x5004), (.storeAccess, 0x5008),
        (.storeAccess, 0x500C)]) ∧
    (∀ e ∈ [1, 2, 4, 8], s.validPW (8 * e) = true ∧
      ∃ reports, s.trouble true (s.shaped e 10 11) = some (.faults 2 reports)) ∧
    ∀ n ∈ [1, 2, 4, 8], ∀ e ∈ [1, 2, 4, 8], (0 : MIdx).toNat % n = 0 ∧
      ∃ reports, s.trouble true (s.whole n e 10) = some (.faults 2 reports) := by
  intro s
  have h : ∀ e ∈ [1, 2, 4, 8], s.validPW (8 * e) = true ∧
      trapsIn s true (s.shaped e 10 11) 2 := by decide +kernel
  have h' : ∀ n ∈ [1, 2, 4, 8], ∀ e ∈ [1, 2, 4, 8], (0 : MIdx).toNat % n = 0 ∧
      trapsIn s true (s.whole n e 10) 2 := by decide +kernel
  exact ⟨rfl, by decide, .inl rfl, by decide +kernel,
    fun e he => ⟨(h e he).1, reports_of_trapsIn (h e he).2⟩,
    fun n hn e he => ⟨(h' n hn e he).1, reports_of_trapsIn (h' n hn e he).2⟩⟩

theorem witness_LowestFaultingRow :
    stateT.trouble false (stateT.shaped 4 10 11) = some (.faults 1 [(.loadAccess, 0x2004)]) := by
  decide +kernel

theorem zero_regs (n i j : Nat) : ((List.replicate n zeroReg).getD i []).getD j 0 = 0 := by
  have h : ∀ j, zeroReg.getD j 0 = 0 := fun j => by
    match j with
    | 0 | 1 | 2 | 3 => rfl
    | _ + 4 => rfl
  have h' : (List.replicate n zeroReg).getD i [] = if i < n then zeroReg else [] := by
    rw [List.getD_eq_getElem?_getD, List.getElem?_replicate]
    split <;> rfl
  rw [h']
  split
  · exact h j
  · rfl

/-- Transfers that resume at their last row over registers and memory of zeros: every load and store. -/
theorem witness_TransferResumes :
    let s := moving 0
    s.mstatus.ms ≠ 0#2 ∧ s.xmrstart = 0 ∧ s.mem.wf = true ∧
    (∀ n q c, elem 8 (((List.replicate n zeroReg).getD (q / s.cfg.rows) []).getD (q % s.cfg.rows) 0) c = 0) ∧
    (∀ a, s.byteAt a = 0 ∧ s.mem.read a = 0) ∧ (∀ r q c, s.el 8 r q c = 0) ∧
    (∀ e ∈ [1, 2, 4, 8], s.validPW (8 * e) = true ∧ 3 < (s.shaped e 10 11).rows ∧
      ∀ store, s.reachable store (s.shaped e 10 11)) ∧
    ∀ n ∈ [1, 2, 4, 8], ∀ e ∈ [1, 2, 4, 8], (0 : MIdx).toNat % n = 0 ∧
      4 * n - 1 < (s.whole n e 10).rows ∧ ∀ store, s.reachable store (s.whole n e 10) := by
  refine ⟨by decide, rfl, rfl, fun n q c => ?_, fun _ => ⟨rfl, rfl⟩, fun r q c => ?_, fun e he => ?_,
    fun n hn e he => ?_⟩
  · rw [zero_regs]
    exact BitVec.extractLsb'_zero ..
  · have hm : (moving 0).m[r.toNat]'r.isLt = zeroReg := by
      simp [moving, sized, base, State.setX, State.reset]
    have h0 := zero_regs 1 0 q
    rw [show ((List.replicate 1 zeroReg).getD 0 []) = zeroReg from rfl] at h0
    unfold State.el State.mrow
    rw [hm, h0]
    show elem 8 (truncRow .m128 0) c = 0
    rw [show truncRow .m128 0 = 0 by decide +kernel]
    exact BitVec.extractLsb'_zero ..
  · have h := witness_ShapedComplete 0 (by simp) e he
    exact ⟨(h true).2.2.1, (by decide : 3 < (moving 0).sM), fun store => (h store).2.2.2.2⟩
  · have h := witness_WholeComplete 0 (by simp) n hn e he
    refine ⟨(h true).2.2.1, ?_, fun store => (h store).2.2.2.2⟩
    simp only [List.mem_cons, List.not_mem_nil, or_false] at hn
    have h4 : (moving 0).cfg.rows = 4 := show base.cfg.rows = 4 by decide
    show 4 * n - 1 < n * (moving 0).cfg.rows
    rw [h4]
    rcases hn with rfl | rfl | rfl | rfl <;> decide

/-- Elements of 2, 4 and 8 bytes at a misaligned address, under each policy, and one of 4 bytes that
straddles a page. -/
theorem witness_MisalignedElement :
    let s := fun p => ({ sized (base.setX 10 0x1001) 1 0 8 with
      cfg := { base.cfg with misalignedPolicy := p } } : State)
    let u := sized (base.setX 10 0x1FFE) 1 0 8
    (∀ p ∈ [MisalignedPolicy.refuse, .trap, .split],
      (s p).mstatus.ms ≠ 0#2 ∧ (s p).xmrstart = 0 ∧ (s p).cfg.reservedPolicy = .refuse ∧
      (s p).mem.wf = true ∧ (s p).cfg.misalignedPolicy = p ∧
      (∀ e ∈ [2, 4, 8], (s p).validPW (8 * e) = true ∧ 0 < ((s p).shaped e 10 11).rows ∧
        e ≤ ((s p).shaped e 10 11).rowBytes ∧ ((s p).shaped e 10 11).addr 0 0 % e ≠ 0) ∧
      ∀ n ∈ [1, 2, 4, 8], ∀ e ∈ [2, 4, 8], (0 : MIdx).toNat % n = 0 ∧ 0 < ((s p).whole n e 10).rows ∧
        e ≤ ((s p).whole n e 10).rowBytes ∧ ((s p).whole n e 10).addr 0 0 % e ≠ 0) ∧
    (∀ store t, (s .split).reachable store t) ∧
    (u.shaped 4 10 11).addr 0 0 % 4 ≠ 0 ∧ (u.shaped 4 10 11).straddles 0 0 = true := by
  intro s u
  exact ⟨by decide +kernel, fun store t => reachable_base (s .split) rfl store t fun _ _ => .inr rfl,
    by decide +kernel, by decide +kernel⟩

/-- The position of the bf16 selector, and its lowest and highest one, on RV64; a state on RV32. -/
theorem witness_CsrValues :
    let s : State := { base with cfg := { base.cfg with xlen := .x32 } }
    base.Inv ∧ 8 ≤ base.cfg.bf16Bit ∧ base.cfg.bf16Bit < base.cfg.xlen.bits ∧ 63 < base.cfg.xlen.bits ∧
    base.cfg.xlen = .x64 ∧ s.Inv ∧ s.cfg.xlen = .x32 := by
  have h := base_inv
  refine ⟨h, by decide, by decide, by decide, rfl, ⟨h.mem_wf, by decide, h.reg_rows, h.row_bits, ?_, h.x_zero,
    ?_⟩, rfl⟩
  · intro i; simp [base, State.reset, Xlen.bits]
  · intro w hw
    simp only [State.wordRegs, base, State.reset, List.mem_cons, List.not_mem_nil, or_false] at hw
    rcases hw with rfl | rfl | rfl | rfl | rfl | rfl | rfl | rfl | rfl | rfl | rfl | rfl <;>
      simp [Xlen.bits]

/-- Each clause, with the largest operand that fits, by each form. -/
theorem witness_MatrixCsrAccess :
    base.mstatus.ms ≠ 0#2 ∧ Csr.xmsize.isMatrix = true ∧ csrAt base.cfg 0xCC1 = some .xmsize ∧
    csrAt base.cfg 0x800 = some .xmrstart ∧ csrAt base.cfg 0x802 = some .xmxrm ∧
    csrAt base.cfg 0x801 = some .xmcsr ∧ csrAt base.cfg 0xC00 = some .cycle ∧
    csrAt base.cfg 0xC01 = some .time ∧ csrAt base.cfg 0xC02 = some .instret ∧
    (∀ p ∈ [(0xC80#12, Csr.cycleh), (0xC81, .timeh), (0xC82, .instreth)],
      csrAt { base.cfg with xlen := .x32 } p.1 = some p.2) ∧ (3 : XIdx) ≠ 0 ∧ (7 : XIdx) ≠ 0 ∧ CsrOp.set ≠ .write ∧
    ∀ op ∈ [CsrOp.write, .set, .clear], ∀ imm,
      (csrMade op ((base.setX 3 3).csrRead .xmxrm) ((base.setX 3 3).csrArg imm 3)).toNat < 4 ∧
      (csrMade op ((base.setX 7 7).csrRead .xmcsr) ((base.setX 7 7).csrArg imm 7)).toNat < 8 := by decide

/-- Each clause, with the smallest operand that has a reserved bit. -/
theorem witness_CsrRefusals :
    (∀ p ∈ [(0xCC0#12, Csr.xmxsat), (0xCC1, .xmsize), (0xCC2, .xmregsize), (0xCC3, .xmlenb), (0xCC4, .xmisa),
      (0x300, .mstatus), (0x305, .mtvec), (0x302, .medeleg), (0x303, .mideleg), (0x341, .mepc),
      (0x342, .mcause), (0x343, .mtval), (0x100, .sstatus), (0x105, .stvec), (0x141, .sepc),
      (0x142, .scause), (0x143, .stval), (0x001, .fflags), (0x002, .frm), (0x003, .fcsr), (0x802, .xmxrm),
      (0x801, .xmcsr), (0xC00, .cycle), (0xC01, .time), (0xC02, .instret)], csrAt base.cfg p.1 = some p.2) ∧
    (∀ p ∈ [(0xC80#12, Csr.cycleh), (0xC81, .timeh), (0xC82, .instreth)],
      csrAt base.cfg p.1 = none ∧ csrAt { base.cfg with xlen := .x32 } p.1 = some p.2) ∧
    csrAt base.cfg 0x7FF = none ∧ (0x7FF : BitVec 12) ∉ base.cfg.hostCsrs ∧
    ({ base with priv := .s } : State).priv ≠ .m ∧ ({ base with priv := .u } : State).priv = .u ∧
    State.reset.mstatus.fs = 0#2 ∧ base.mstatus.ms ≠ 0#2 ∧ base.cfg.reservedPolicy = .refuse ∧
    (4 : XIdx) ≠ 0 ∧ (8 : XIdx) ≠ 0 ∧ ∀ op ∈ [CsrOp.write, .set], ∀ imm,
      4 ≤ (csrMade op ((base.setX 4 4).csrRead .xmxrm) ((base.setX 4 4).csrArg imm 4)).toNat ∧
      8 ≤ (csrMade op ((base.setX 8 8).csrRead .xmcsr) ((base.setX 8 8).csrArg imm 8)).toNat := by decide

/-- `MS_POS` of `Config.standard`, the lowest and the highest position of the statement; the bf16 selector at
its lowest and its highest position; each register's address. -/
theorem witness_StatusWrite :
    (∀ p ∈ [18, 25, 61], ∀ s ∈ [({ base with cfg := { base.cfg with msPos := p } } : State)],
      s.priv = .m ∧ s.priv ≠ .u ∧ 18 ≤ s.cfg.msPos ∧ s.cfg.msPos + 2 < s.cfg.xlen.bits) ∧
    (∀ p ∈ [8, 63], ∀ c ∈ [{ base.cfg with hasBf16 := true, bf16Bit := p }],
      c.hasBf16 = true ∧ 8 ≤ c.bf16Bit ∧ c.bf16Bit < c.xlen.bits) ∧
    base.mstatus.fs ≠ 0#2 ∧
    ∀ p ∈ [(0x300#12, Csr.mstatus), (0x305, .mtvec), (0x302, .medeleg), (0x303, .mideleg), (0x341, .mepc),
      (0x342, .mcause), (0x343, .mtval), (0x100, .sstatus), (0x105, .stvec), (0x141, .sepc),
      (0x142, .scause), (0x143, .stval), (0x001, .fflags), (0x002, .frm), (0x003, .fcsr)],
      csrAt base.cfg p.1 = some p.2 := by decide

theorem witness_HostInstructions :
    (5 : XIdx) ≠ 0 ∧ (base.setX 5 1).xval 5 ≠ (base.setX 5 1).xval 0 ∧ base.xval 5 = base.xval 0 ∧
    base.priv ≠ .u ∧ ({ base with priv := .u } : State).priv = .u := by decide

end Sys2Proof.Tests
end

section
/-! The outcomes of a matrix instruction (family 00_scope.md): what the host keeps until the epilogue or a
trap runs, and from it every outcome of `exec`. -/

namespace Sys2Proof.Machine

/-! ### What a transfer leaves of the host -/

/-- Writing matrix registers keeps the host state. -/
theorem hostKept_setGroup (s : State) (r : MIdx) (l : List MReg) : HostKept s (s.setGroup r l) := by
  constructor <;> simp

/-- Storing bytes keeps the host state. -/
theorem hostKept_storeBytes (s : State) (sure maybe : List Host.Cell) :
    HostKept s (s.storeBytes sure maybe) := by
  constructor <;> simp

/-- The part of a load that a trap leaves done keeps the host state: it writes matrix registers and
draws free values. -/
theorem hostKept_loadPart (s : State) (x : Transfer) (n : Nat) (md : MIdx) (row : Nat) :
    HostKept s (s.loadPart x n md row) :=
  { hostKept_setGroup s md _ with }

/-! ### The epilogue and traps after a part of an instruction -/

/-- The epilogue after a computation that keeps `pc`, `instret` and the configuration has run for the
state before it. -/
theorem finished_finish_of_eq {s u : State} (hcfg : u.cfg = s.cfg) (hpc : u.pc = s.pc)
    (hin : u.instret = s.instret) : Finished s u.finish :=
  ⟨by simp [State.nextPc, hcfg, hpc], by simp [hin], rfl, rfl⟩

/-- The epilogue keeps the host state. -/
theorem HostKept.finish {s u : State} (h : HostKept s u) : HostKept s u.finish :=
  { h with mstatus := by rw [State.finish_mstatus, h.mstatus] }

/-- An exception taken after a part of an instruction that keeps `pc` and the host state is one taken at
the state before it. -/
theorem TrapTaken.of_hostKept {s u t : State} {e : Exc} {tval : Word} (h : TrapTaken u t e tval)
    (hk : HostKept s u) (hpc : u.pc = s.pc) : TrapTaken s t e tval := by
  obtain ⟨hepc, hcause, htval, htvec, hdeleg, -⟩ := hk.mTrap
  obtain ⟨hsepc, hscause, hstval, hstvec⟩ := hk.sTrap
  exact h.of_eq hpc hk.priv (by rw [hk.mstatus]) (by rw [hk.mstatus]) hdeleg htvec hstvec
    ⟨hepc, hcause, htval⟩ ⟨hsepc, hscause, hstval⟩

/-- IllegalInstruction is a trap and retires nothing. -/
theorem trapTaken_illegal (s : State) (word : BitVec 32) :
    ∃ e tval, TrapTaken s (s.illegal word) e tval ∧ (s.illegal word).instret = s.instret :=
  ⟨_, _, trapTaken_takeException s _ _, State.takeTrap_instret s _ _ _⟩

/-- The trap of a row is an exception taken at a state with the same `pc`, `instret` and host state:
before it only `xmrstart`, `MS` and the count of draws are written. -/
theorem rowTrap_eq_takeException (s : State) (row : Nat) (reports : List (Exc × Nat)) :
    ∃ u e tval, s.rowTrap row reports = u.takeException e tval ∧ HostKept s u ∧ u.pc = s.pc ∧
      u.instret = s.instret :=
  ⟨_, _, _, rfl, by constructor <;> simp, rfl, rfl⟩

/-- A transfer that traps in a row, after a part that keeps `pc`, `instret` and the host state, takes an
exception and retires nothing. -/
theorem trapTaken_rowTrap {s u : State} (hk : HostKept s u) (hpc : u.pc = s.pc)
    (hin : u.instret = s.instret) (row : Nat) (reports : List (Exc × Nat)) :
    ∃ e tval, TrapTaken s (u.rowTrap row reports) e tval ∧
      (u.rowTrap row reports).instret = s.instret := by
  obtain ⟨v, e, tval, hrow, hkv, hpcv, hinv⟩ := rowTrap_eq_takeException u row reports
  rw [hrow]
  have htrap : TrapTaken u (v.takeException e tval) e tval :=
    (trapTaken_takeException v e tval).of_hostKept hkv hpcv
  exact ⟨e, tval, htrap.of_hostKept hk hpc, by simp [State.takeException, hinv, hin]⟩

/-! ### Every outcome -/

/-- A next state is that of the epilogue, which counts one retired instruction, or that of a trap, which
counts none. -/
theorem NextOf.finished_or_trapTaken {i : Instr} {s t : State} (h : NextOf i s t) :
    Finished s t ∨ ∃ e tval, TrapTaken s t e tval ∧ t.instret = s.instret := by
  cases h with
  | plain u _ _ hu ht =>
    subst ht
    exact .inl (finished_finish_of_eq hu.host.cfg hu.pc hu.instret)
  | illegal ht =>
    subst ht
    exact .inr (trapTaken_illegal s _)
  | loadDone x n md _ _ _ ht =>
    subst ht
    exact .inl (finished_finish_of_eq (State.setGroup_cfg ..) (State.setGroup_pc ..)
      (State.setGroup_instret ..))
  | loadPart x n md row reports _ _ _ _ ht =>
    subst ht
    exact .inr (trapTaken_rowTrap (hostKept_loadPart s x n md row) (State.setGroup_pc ..)
      (State.setGroup_instret ..) row reports)
  | storeDone x ms3 _ _ ht =>
    subst ht
    exact .inl (finished_finish_of_eq rfl rfl rfl)
  | storePart x ms3 row reports _ _ _ ht =>
    subst ht
    exact .inr (trapTaken_rowTrap (hostKept_storeBytes s _ _) rfl rfl row reports)

/-- An instruction that is no load or store is checked, computes and runs the epilogue, so it completes
with the host state kept, raises IllegalInstruction, or is refused as RESERVED. -/
theorem exec_plain_cases (i : Instr) (s : State) (hl : isLoad i = false) (hs : isStore i = false) :
    (∃ t, exec i s = .next t ∧ Finished s t ∧ HostKept s t) ∨
      exec i s = .next (s.illegal (encode i)) ∨ ∃ why, exec i s = .refused (.reserved why) := by
  obtain ⟨gates, operands, u, hexec, hu, -⟩ := exec_plain i s hl hs
  rw [hexec]
  rcases guard_cases s (encode i) (s.offGate :: gates ++ s.startGate :: operands)
    (.next u.finish) with ⟨hgo, -⟩ | hstop
  · exact .inl ⟨u.finish, hgo, finished_finish_of_eq hu.host.cfg hu.pc hu.instret, hu.host.finish⟩
  · exact .inr hstop

/-- Settles O15, from what `exec` can answer: every next state by the kind of outcome it is, and an
instruction that is no load or store by its checks. -/
theorem outcomesOfExec : Obligations.OutcomesOfExec :=
  ⟨fun _ _ _ h => (exec_next h).finished_or_trapTaken, exec_plain_cases⟩

end Sys2Proof.Machine
end

section
/-! The reset state (family 10_state.md). -/

namespace Sys2Proof.Machine

/-- Every matrix register of the reset state is the register of zeros. -/
theorem reset_m (r : MIdx) : State.reset.m[r.toNat]'r.isLt = zeroReg := by
  simp [State.reset]

/-- Every register of `XLEN` bits of the reset state but `pc` is zero. -/
theorem reset_wordRegs {w : Word} (h : w ∈ State.reset.wordRegs) : w = 0x1000#64 ∨ w = 0 := by
  simpa [State.wordRegs, State.reset] using h

/-- Settles O8: memory is empty, every register is zero, and `pc` is an address of `XLEN` bits. -/
theorem invReset : Obligations.InvReset where
  mem_wf := rfl
  mem_below := rfl
  reg_rows r := by rw [reset_m]; rfl
  row_bits r row h := by
    rw [reset_m] at h
    rw [List.eq_of_mem_replicate h, ← truncRow_zero State.reset.cfg.mlen]
    exact truncRow_lt _ _
  x_bits i := by
    have hx : State.reset.x[i.toNat]'i.isLt = 0 := by simp [State.reset]
    rw [hx]
    exact Nat.two_pow_pos _
  x_zero := by simp [State.reset]
  words w h := by
    rcases reset_wordRegs h with rfl | rfl
    · decide
    · exact Nat.two_pow_pos _

end Sys2Proof.Machine
end

section
/-! What a matrix instruction leaves of the unit's own state (family 10_state.md): the flags, `xmsize` and
the matrix registers, read off the next states that `exec` can give. -/

namespace Sys2Proof.Machine

/-- The flags, `FS` and `xmsize` are as before. -/
structure FlagsAndSizesKept (s t : State) : Prop where
  sat : SatKept s t
  float : FloatKept s t
  sizes : SizesKept s t

/-- IllegalInstruction changes neither flags nor sizes. -/
theorem flagsAndSizesKept_illegal (s : State) (word : BitVec 32) :
    FlagsAndSizesKept s (s.illegal word) := by
  obtain ⟨-, -, -, -, -, hsat, hsizes, hflags, -, -, -, hfs, -⟩ := takeException_kept s .illegal
    (if s.cfg.illegalTvalIsWord then word.setWidth 64 else 0)
  exact ⟨hsat, ⟨hflags, hfs⟩, hsizes⟩

/-- The trap of a row changes neither flags nor sizes. -/
theorem FlagsAndSizesKept.rowTrap {s u : State} (h : FlagsAndSizesKept s u) (row : Nat)
    (reports : List (Exc × Nat)) : FlagsAndSizesKept s (u.rowTrap row reports) := by
  obtain ⟨-, -, -, -, -, hsat, ⟨hM, hN, hK⟩, hflags, -, -, -, hfs, -⟩ := rowTrap_kept u row reports
  obtain ⟨sat, ⟨flags, fs⟩, M, N, K⟩ := h
  exact ⟨hsat.trans sat, ⟨hflags.trans flags, hfs.trans fs⟩, hM.trans M, hN.trans N, hK.trans K⟩

/-- The epilogue changes neither flags nor sizes. -/
theorem FlagsAndSizesKept.finish {s u : State} (h : FlagsAndSizesKept s u) :
    FlagsAndSizesKept s u.finish := ⟨h.sat, h.float, h.sizes⟩

/-- Writing matrix registers changes neither flags nor sizes. -/
theorem flagsAndSizesKept_setGroup (s : State) (md : MIdx) (l : List MReg) :
    FlagsAndSizesKept s (s.setGroup md l) := by
  constructor <;> simp [SatKept, FloatKept, SizesKept]

/-- Storing bytes changes neither flags nor sizes. -/
theorem flagsAndSizesKept_storeBytes (s : State) (sure maybe : List Host.Cell) :
    FlagsAndSizesKept s (s.storeBytes sure maybe) := ⟨rfl, ⟨rfl, rfl⟩, rfl, rfl, rfl⟩

/-- The part of a load that a trap leaves done changes neither flags nor sizes. -/
theorem flagsAndSizesKept_loadPart (s : State) (x : Transfer) (n : Nat) (md : MIdx) (row : Nat) :
    FlagsAndSizesKept s (s.loadPart x n md row) := by
  obtain ⟨sat, float, sizes⟩ := flagsAndSizesKept_setGroup s md
    (s.groupOf n fun q => if q < row then s.loadedRow x md q else Config.freeRow (s.draws + q))
  exact ⟨sat, float, sizes⟩

/-- Only a computation that completes can change the flags or the sizes: a load, a store and a trap do
not. -/
theorem NextOf.computed_or_kept {i : Instr} {s t : State} (h : NextOf i s t) :
    (∃ u, Computed i s u ∧ t = u.finish) ∨ FlagsAndSizesKept s t := by
  cases h with
  | plain u _ _ hu ht => exact .inl ⟨u, hu, ht⟩
  | illegal ht => exact .inr (ht ▸ flagsAndSizesKept_illegal s _)
  | loadDone x n md _ _ _ ht => exact .inr (ht ▸ (flagsAndSizesKept_setGroup s md _).finish)
  | loadPart x n md row reports _ _ _ _ ht =>
    exact .inr (ht ▸ (flagsAndSizesKept_loadPart s x n md row).rowTrap row reports)
  | storeDone x ms3 _ _ ht => exact .inr (ht ▸ (flagsAndSizesKept_storeBytes s _ _).finish)
  | storePart x ms3 row reports _ _ _ ht =>
    exact .inr (ht ▸ (flagsAndSizesKept_storeBytes s _ _).rowTrap row reports)

/-- Settles O13: a computation changes the flags of its kind alone and ORs into them; no other outcome
changes a flag. -/
theorem flagWriters : Obligations.FlagWriters := by
  intro i s t h
  rcases (exec_next h).computed_or_kept with ⟨u, hu, rfl⟩ | ⟨hsat, ⟨hflags, hfs⟩, -⟩
  · obtain ⟨g, hg⟩ := hu.flags
    refine ⟨hu.sat, hu.satMono, hu.float, fun k hk => ?_⟩
    rw [State.finish_fflags, hg, BitVec.getLsbD_or, hk, Bool.true_or]
  · exact ⟨fun _ => hsat, fun hs => hsat.trans hs, fun _ => ⟨hflags, hfs⟩, fun k hk => by rwa [hflags]⟩

/-- A load is no store and no configuration instruction. -/
theorem not_store_or_config_of_isLoad {i : Instr} (h : isLoad i = true) :
    (isStore i || isConfig i) = false := by
  have huop : uopOf i = 4#3 := by simpa [isLoad] using h
  simp [isStore, isConfig, huop]

/-- A store or a configuration instruction leaves every matrix register, whether it completes or
traps. -/
theorem NextOf.m_kept {i : Instr} {s t : State} (h : NextOf i s t)
    (hi : (isStore i || isConfig i) = true) : t.m = s.m := by
  cases h with
  | plain u _ hs hu ht =>
    subst ht
    exact hu.regs (by simpa [hs] using hi)
  | illegal ht => exact ht ▸ State.takeTrap_m ..
  | loadDone _ _ _ hl => simp [not_store_or_config_of_isLoad hl] at hi
  | loadPart _ _ _ _ _ hl => simp [not_store_or_config_of_isLoad hl] at hi
  | storeDone _ _ _ _ ht => exact ht ▸ rfl
  | storePart x ms3 row reports _ _ _ ht =>
    obtain ⟨-, -, hm, -⟩ := rowTrap_kept (s.storePart x ms3 row) row reports
    exact ht ▸ hm

/-- `xmsize` changes by a configuration instruction alone. -/
theorem NextOf.sizes_kept {i : Instr} {s t : State} (h : NextOf i s t) (hi : isConfig i = false) :
    SizesKept s t := by
  rcases h.computed_or_kept with ⟨u, hu, rfl⟩ | hk
  · exact hu.sizes hi
  · exact hk.sizes

/-- Settles O14, from the next states of `exec`. -/
theorem registerWriters : Obligations.RegisterWriters :=
  fun _ _ _ h => ⟨(exec_next h).m_kept, (exec_next h).sizes_kept⟩

end Sys2Proof.Machine
end

section
/-! RESERVED operands of the multiplications and the pointwise instructions (family 10_state.md): the gates of the
prologue pass, an operand check fires. -/

namespace Sys2Proof.Machine

/-! ### A check that fires -/

/-- The first check that fires, after checks that do not, is the one that stops. -/
theorem firstStop_append_of_pass {gates : List (Bool × Stop)} (rest : List (Bool × Stop))
    (h : ∀ c ∈ gates, c.1 = false) : firstStop (gates ++ rest) = firstStop rest := by
  induction gates with
  | nil => rfl
  | cons c gates ih =>
    obtain ⟨hc, hgates⟩ := List.forall_mem_cons.1 h
    rw [List.cons_append, firstStop, hc, ih hgates]
    rfl

/-- An operand that fails its check, after checks that pass, is refused under `RESERVED_POLICY = refuse`. -/
theorem guard_refused {s : State} (word : BitVec 32) {gates : List (Bool × Stop)} {ok : Bool}
    {why : Reserved} (rest : List (Bool × Stop)) (go : Host.Outcome State Fault Refusal)
    (hpolicy : s.cfg.reservedPolicy = .refuse) (hgates : ∀ c ∈ gates, c.1 = false)
    (hok : ok = false) :
    s.guard word (gates ++ needs ok why :: rest) go = .refused (.reserved why) := by
  have hstop : firstStop (gates ++ needs ok why :: rest) = some (.reserved why) := by
    rw [firstStop_append_of_pass _ hgates, hok]
    rfl
  simp [State.guard, hstop, State.stop, hpolicy]

/-- The check of an operand fires exactly if the operand is not in order. -/
@[simp] theorem needs_fst (ok : Bool) (why : Reserved) : (needs ok why).1 = !ok := rfl

/-! ### The gates of the prologue -/

/-- With every feature, any bit of `xmisa` is set. -/
theorem has_of_all {s : State} (h : s.cfg.xmisa = 0x3FF#10) {bit : Nat} (hb : bit < 10) : s.has bit := by
  unfold State.has
  rw [h]
  interval_cases bit <;> rfl

/-- Steps 2, 3 and 5 of the prologue pass. -/
theorem gates_pass {s : State} (hr : s.ready) {bit : Nat} (hb : s.has bit) :
    ∀ c ∈ [s.offGate, s.featureGate bit, s.startGate], c.1 = false := by
  have hoff : s.offGate.1 = false := by simpa [State.offGate] using hr.1
  have hfeature : (s.featureGate bit).1 = false := by
    unfold State.has at hb
    rw [State.featureGate, hb]
    rfl
  have hstart : s.startGate.1 = false := by simpa [State.startGate] using hr.2
  simp [hoff, hfeature, hstart]

/-- Steps 2 to 5 of the prologue pass. -/
theorem floatGates_pass {s : State} (hr : s.ready) {bit : Nat} (hb : s.has bit) (hf : s.floatReady) :
    ∀ c ∈ [s.offGate, s.featureGate bit, s.fsGate, s.frmGate, s.startGate], c.1 = false := by
  have hgates := gates_pass hr hb
  have hfs : s.fsGate.1 = false := by simpa [State.fsGate] using hf.1
  have hfrm : s.frmGate.1 = false := by simpa [State.frmGate] using hf.2
  simp only [List.forall_mem_cons] at hgates ⊢
  exact ⟨hgates.1, hgates.2.1, hfs, hfrm, hgates.2.2⟩

/-! ### Odd register pairs -/

/-- A pair `B` with an odd first register. -/
theorem floatMul_oddB {s : State} (word : BitVec 32) {k : FloatMulKind} {md ms2 ms1 : MIdx}
    (hr : s.ready) (hb : s.has k.bit) (hf : s.floatReady) (hpolicy : s.cfg.reservedPolicy = .refuse)
    (hodd : (!k.pairB || pairOk ms2) = false) :
    s.floatMul word k md ms2 ms1 = .refused (.reserved .oddPair) :=
  guard_refused word _ _ hpolicy (floatGates_pass hr hb hf) hodd

/-- A destination pair of a float multiplication with an odd first register. -/
theorem floatMul_oddAcc {s : State} (word : BitVec 32) {k : FloatMulKind} {md ms2 ms1 : MIdx}
    (hr : s.ready) (hb : s.has k.bit) (hf : s.floatReady) (hpolicy : s.cfg.reservedPolicy = .refuse)
    (hB : (!k.pairB || pairOk ms2) = true) (hodd : accOk k.acc md = false) :
    s.floatMul word k md ms2 ms1 = .refused (.reserved .oddPair) := by
  have hpass : ∀ c ∈ [s.offGate, s.featureGate k.bit, s.fsGate, s.frmGate, s.startGate] ++
      [needs (!k.pairB || pairOk ms2) .oddPair], c.1 = false :=
    List.forall_mem_append.2 ⟨floatGates_pass hr hb hf,
      by simp only [List.forall_mem_singleton, needs_fst, hB]; rfl⟩
  exact guard_refused word _ _ hpolicy hpass hodd

/-- A destination pair of an integer multiplication with an odd first register. -/
theorem intMul_oddAcc {s : State} (word : BitVec 32) (signs : Signs) (ws wd : Nat) {bit : Nat}
    {md ms2 ms1 : MIdx} (hr : s.ready) (hb : s.has bit) (hpolicy : s.cfg.reservedPolicy = .refuse)
    (hodd : pairOk md = false) :
    s.intMul word { signs, ws, wd, acc := .pair, bit } md ms2 ms1 = .refused (.reserved .oddPair) :=
  guard_refused word _ _ hpolicy (gates_pass hr hb) hodd

/-- A register with an odd number starts no pair. -/
theorem pairOk_eq_false {r : MIdx} (h : r.toNat % 2 = 1) : pairOk r = false := by
  simp [pairOk, h]

/-- Settles O24: the gates pass, so the check of the pair fires. -/
theorem oddPairReserved : Obligations.OddPairReserved := by
  intro s md ms2 ms1 hr hall hf hpolicy
  refine ⟨fun hodd => ?_, fun hodd => ?_⟩
  · exact floatMul_oddB _ hr (has_of_all hall (by decide)) hf hpolicy (by simp [pairOk_eq_false hodd])
  · have hacc : accOk .pair md = false := pairOk_eq_false hodd
    have hint : ∀ word signs, s.intMul word { signs, ws := 16, wd := 64, acc := .pair, bit := 2 } md ms2 ms1 =
        .refused (.reserved .oddPair) := fun word signs =>
      intMul_oddAcc word signs 16 64 hr (has_of_all hall (by decide)) hpolicy hacc
    simp only [List.forall_mem_cons]
    exact ⟨floatMul_oddAcc _ hr (has_of_all hall (by decide)) hf hpolicy rfl hacc,
      floatMul_oddAcc _ hr (has_of_all hall (by decide)) hf hpolicy rfl hacc,
      hint _ _, hint _ _, hint _ _, hint _ _, List.forall_mem_nil _⟩

/-! ### Matrix sizes outside the limits -/

/-- A size is past its limit for a multiplication at source width `w` with at most `nmax` columns, or `sizeK` is
no multiple of the element (10_state.md R46). -/
def SizesPast (s : State) (w nmax : Nat) : Prop :=
  (s.cfg.rows < s.sM ∨ s.cfg.mlenb < s.sK) ∨ nmax < s.sN ∨ s.sK % max 1 (w / 8) ≠ 0

/-- When the sizes of a multiplication are outside the limits. -/
theorem validMM_eq_false {s : State} {w nmax : Nat} :
    s.validMM w nmax = false ↔ SizesPast s w nmax := by
  simp only [SizesPast, State.validMM, Bool.and_eq_false_iff, decide_eq_false_iff_not, not_le, beq_eq_false_iff_ne]
  tauto

/-- When the sizes of a pointwise instruction are outside the limits. -/
theorem validPW_eq_false {s : State} {w : Nat} :
    s.validPW w = false ↔ (s.cfg.rows < s.sM ∨ s.cfg.mlenb < s.sK) ∨ s.sK % (w / 8) ≠ 0 := by
  simp only [State.validPW, Bool.and_eq_false_iff, decide_eq_false_iff_not, not_le, beq_eq_false_iff_ne]

/-- A float multiplication of registers that are in order. -/
theorem floatMul_shape {s : State} (word : BitVec 32) {k : FloatMulKind} {md ms2 ms1 : MIdx}
    (hr : s.ready) (hb : s.has k.bit) (hf : s.floatReady) (hpolicy : s.cfg.reservedPolicy = .refuse)
    (hB : (!k.pairB || pairOk ms2) = true) (hacc : accOk k.acc md = true)
    (hdisj : disjointRegs (accRegs k.acc md) (ms1 :: bRegs k.pairB ms2) = true)
    (hshape : s.validMM k.ws (s.maxN k.pairB) = false) :
    s.floatMul word k md ms2 ms1 = .refused (.reserved .shape) := by
  have hpass : ∀ c ∈ [s.offGate, s.featureGate k.bit, s.fsGate, s.frmGate, s.startGate] ++
      [needs (!k.pairB || pairOk ms2) .oddPair, needs (accOk k.acc md) .oddPair,
        needs (disjointRegs (accRegs k.acc md) (ms1 :: bRegs k.pairB ms2)) .overlap], c.1 = false := by
    refine List.forall_mem_append.2 ⟨floatGates_pass hr hb hf, ?_⟩
    simp only [List.forall_mem_cons, needs_fst, hB, hacc, hdisj]
    simp
  exact guard_refused word [] _ hpolicy hpass hshape

/-- An integer multiplication of registers that are in order. -/
theorem intMul_shape {s : State} (word : BitVec 32) {k : IntMulKind} {md ms2 ms1 : MIdx}
    (hr : s.ready) (hb : s.has k.bit) (hpolicy : s.cfg.reservedPolicy = .refuse)
    (hregs : ∀ c ∈ accRegsOk k.acc md ms2 ms1, c.1 = false)
    (hshape : s.validMM k.ws s.cfg.rows = false) :
    s.intMul word k md ms2 ms1 = .refused (.reserved .shape) :=
  guard_refused word [] _ hpolicy (List.forall_mem_append.2 ⟨gates_pass hr hb, hregs⟩) hshape

/-- A pointwise instruction, of any operation, whose row index names a row. -/
theorem pwChecks_shape {s : State} (word : BitVec 32) {w bit : Nat} {b : Src2}
    (go : Host.Outcome State Fault Refusal) (hr : s.ready) (hb : s.has bit)
    (hpolicy : s.cfg.reservedPolicy = .refuse) (hrow : b.rowOk s = true) (hshape : s.validPW w = false) :
    s.guard word (s.pwChecks w bit b) go = .refused (.reserved .shape) := by
  have hpass : ∀ c ∈ [s.offGate, s.featureGate bit, s.startGate] ++ [needs (b.rowOk s) .rowIndex],
      c.1 = false :=
    List.forall_mem_append.2 ⟨gates_pass hr hb, by simp [hrow]⟩
  exact guard_refused word [] go hpolicy hpass hshape

/-- The outcome of a 32-bit pointwise instruction is its checks and what follows them. -/
theorem exec_pointwiseS (s : State) (md ms2 : MIdx) (b : Src2) :
    ∀ i ∈ pointwiseS md ms2 b, ∃ go, exec i s = s.guard (encode i) (s.pwChecks 32 7 b) go := by
  cases b <;> simp only [pointwiseS, withSrc2, List.forall_mem_cons] <;>
    exact ⟨⟨_, rfl⟩, ⟨_, rfl⟩, ⟨_, rfl⟩, ⟨_, rfl⟩, ⟨_, rfl⟩, ⟨_, rfl⟩, ⟨_, rfl⟩, List.forall_mem_nil _⟩

/-- The outcome of a 64-bit pointwise instruction is its checks and what follows them. -/
theorem exec_pointwiseD (s : State) (md ms2 : MIdx) (b : Src2) :
    ∀ i ∈ pointwiseD md ms2 b, ∃ go, exec i s = s.guard (encode i) (s.pwChecks 64 6 b) go := by
  cases b <;> simp only [pointwiseD, withSrc2, List.forall_mem_cons] <;>
    exact ⟨⟨_, rfl⟩, ⟨_, rfl⟩, ⟨_, rfl⟩, ⟨_, rfl⟩, ⟨_, rfl⟩, ⟨_, rfl⟩, ⟨_, rfl⟩, List.forall_mem_nil _⟩

section Shape

variable {s : State} {md ms2 ms1 : MIdx} (hr : s.ready) (hall : s.cfg.xmisa = 0x3FF#10)
  (hf : s.floatReady) (hpolicy : s.cfg.reservedPolicy = .refuse)

include hr hall hf hpolicy

/-- Single destinations. -/
theorem shape_single (hregs : matmulOk md ms2 ms1 = true) :
    ∀ p ∈ [(Instr.mmaqaB md ms2 ms1, 1), (.mmaqauB md ms2 ms1, 1), (.mmaqausB md ms2 ms1, 1),
      (.mmaqasuB md ms2 ms1, 1), (.pmmaqaB md ms2 ms1, 1), (.pmmaqauB md ms2 ms1, 1),
      (.pmmaqausB md ms2 ms1, 1), (.pmmaqasuB md ms2 ms1, 1), (.fmmaccS md ms2 ms1, 4),
      (.fwmmaccH md ms2 ms1, 2)],
      (s.cfg.rows < s.sM ∨ s.cfg.mlenb < s.sK) ∨ s.cfg.rows < s.sN ∨ s.sK % p.2 ≠ 0 →
        exec p.1 s = .refused (.reserved .shape) := by
  have hint : ∀ word signs ws wd bit, bit < 10 → SizesPast s ws s.cfg.rows →
      s.intMul word { signs, ws, wd, acc := .single, bit } md ms2 ms1 = .refused (.reserved .shape) :=
    fun word signs ws wd bit hb hshape => intMul_shape word hr (has_of_all hall hb) hpolicy
      (by simp only [accRegsOk, List.forall_mem_singleton, needs_fst]; rw [← matmulOk, hregs]; rfl)
      (validMM_eq_false.2 hshape)
  have hfloat : ∀ word op ws wd bit, bit < 10 → SizesPast s ws s.cfg.rows →
      s.floatMul word { op, ws, wd, pairB := false, acc := .single, bit } md ms2 ms1 =
        .refused (.reserved .shape) :=
    fun word op ws wd bit hb hshape => floatMul_shape word hr (has_of_all hall hb) hf hpolicy rfl rfl
      hregs (validMM_eq_false.2 hshape)
  simp only [List.forall_mem_cons]
  exact ⟨hint _ _ 8 _ _ (by decide), hint _ _ 8 _ _ (by decide), hint _ _ 8 _ _ (by decide),
    hint _ _ 8 _ _ (by decide), hint _ _ 4 _ _ (by decide), hint _ _ 4 _ _ (by decide),
    hint _ _ 4 _ _ (by decide), hint _ _ 4 _ _ (by decide), hfloat _ _ 32 _ _ (by decide),
    hfloat _ _ 16 _ _ (by decide), List.forall_mem_nil _⟩

/-- Destination pairs. -/
theorem shape_pair (hregs : matmulPairOk md ms2 ms1 = true) :
    ∀ p ∈ [(Instr.mmaqaH md ms2 ms1, 2), (.mmaqauH md ms2 ms1, 2), (.mmaqausH md ms2 ms1, 2),
      (.mmaqasuH md ms2 ms1, 2), (.fwmmaccS md ms2 ms1, 4), (.fmmaccD md ms2 ms1, 8)],
      (s.cfg.rows < s.sM ∨ s.cfg.mlenb < s.sK) ∨ s.cfg.rows < s.sN ∨ s.sK % p.2 ≠ 0 →
        exec p.1 s = .refused (.reserved .shape) := by
  obtain ⟨hpair, hdisj⟩ := Bool.and_eq_true_iff.1 hregs
  have hint : ∀ word signs, SizesPast s 16 s.cfg.rows →
      s.intMul word { signs, ws := 16, wd := 64, acc := .pair, bit := 2 } md ms2 ms1 =
        .refused (.reserved .shape) :=
    fun word signs hshape => intMul_shape word hr (has_of_all hall (bit := 2) (by decide)) hpolicy
      (by simp only [accRegsOk, List.forall_mem_cons, needs_fst, hpair, hdisj]; simp)
      (validMM_eq_false.2 hshape)
  have hfloat : ∀ word op ws bit, bit < 10 → SizesPast s ws s.cfg.rows →
      s.floatMul word { op, ws, wd := 64, pairB := false, acc := .pair, bit } md ms2 ms1 =
        .refused (.reserved .shape) :=
    fun word op ws bit hb hshape => floatMul_shape word hr (has_of_all hall hb) hf hpolicy rfl hpair
      hdisj (validMM_eq_false.2 hshape)
  simp only [List.forall_mem_cons]
  exact ⟨hint _ _, hint _ _, hint _ _, hint _ _, hfloat _ _ 32 _ (by decide),
    hfloat _ _ 64 _ (by decide), List.forall_mem_nil _⟩

/-- Operand `B` in a pair, with twice as many columns. -/
theorem shape_pairB (hregs : matmulBPairOk md ms2 ms1 = true)
    (h : (s.cfg.rows < s.sM ∨ s.cfg.mlenb < s.sK) ∨ 2 * s.cfg.rows < s.sN ∨ s.sK % 2 ≠ 0) :
    exec (.fmmaccH md ms2 ms1) s = .refused (.reserved .shape) := by
  obtain ⟨hpair, hdisj⟩ := Bool.and_eq_true_iff.1 hregs
  exact floatMul_shape _ hr (has_of_all hall (by decide)) hf hpolicy hpair rfl hdisj (validMM_eq_false.2 h)

end Shape

/-- Settles O25, by the kind of destination: the gates and the checks of the registers pass, so the check of
the sizes fires. -/
theorem shapeReserved : Obligations.ShapeReserved := by
  intro s md ms2 ms1 b hr hall hf hpolicy
  refine ⟨shape_single hr hall hf hpolicy, shape_pair hr hall hf hpolicy,
    shape_pairB hr hall hf hpolicy, fun hrow => ⟨fun h i hi => ?_, fun h i hi => ?_⟩⟩
  · obtain ⟨go, hexec⟩ := exec_pointwiseS s md ms2 b i hi
    exact hexec ▸ pwChecks_shape _ go hr (has_of_all hall (by decide)) hpolicy hrow (validPW_eq_false.2 h)
  · obtain ⟨go, hexec⟩ := exec_pointwiseD s md ms2 b i hi
    exact hexec ▸ pwChecks_shape _ go hr (has_of_all hall (by decide)) hpolicy hrow (validPW_eq_false.2 h)

end Sys2Proof.Machine
end

section
/-! Rounding (family 10_state.md). -/

namespace Sys2Proof.Machine

/-- The lowest bits of a pattern are zero exactly if its number is a multiple. -/
theorem extractLsb'_zero_bne {w : Nat} (v : BitVec w) (n : Nat) :
    (v.extractLsb' 0 n != 0) = (v.toNat % 2 ^ n != 0) := by
  rw [Bool.eq_iff_iff]
  simp [← BitVec.toNat_inj]

/-- Settles O35: a shift by 0 discards no bit; else the mode selects the bit. -/
theorem roundingIncrement : Obligations.RoundingIncrement := by
  intro w v d
  refine ⟨fun _ => rfl, fun hd _ => ?_⟩
  have hne : d ≠ 0 := by omega
  refine ⟨?_, ?_, ?_, ?_⟩ <;> simp only [roundInc, if_neg hne, extractLsb'_zero_bne] <;> rfl

end Sys2Proof.Machine
end

section
/-! What the CSRs read as (family 10_state.md): each value fits `XLEN` bits, so the read gives it whole. -/

namespace Sys2Proof.Machine

/-- The number of a reduced word. -/
theorem toNat_wrapX (l : Xlen) (w : Word) : (wrapX l w).toNat = w.toNat % 2 ^ l.bits := by
  cases l
  · simp only [wrapX, Xlen.bits, BitVec.toNat_setWidth]
    omega
  · exact (Nat.mod_eq_of_lt w.isLt).symm

/-- A word below `2^32` reads whole on either `XLEN`. -/
theorem toNat_wrapX_of_lt {l : Xlen} {w : Word} {n : Nat} (hw : w.toNat = n) (h : n < 2 ^ 32) :
    (wrapX l w).toNat = n := by
  have hle : 2 ^ 32 ≤ 2 ^ l.bits := by cases l <;> simp [Xlen.bits]
  rw [toNat_wrapX, hw, Nat.mod_eq_of_lt (by omega)]

/-- The number of a zero-extended field. -/
theorem toNat_field {n : Nat} (hn : n ≤ 32) (v : BitVec n) :
    (v.setWidth 64).toNat = v.toNat ∧ v.toNat < 2 ^ 32 := by
  have hlt : v.toNat < 2 ^ 32 := v.isLt.trans_le (Nat.pow_le_pow_right (by decide) hn)
  exact ⟨by rw [BitVec.toNat_setWidth, Nat.mod_eq_of_lt (by omega)], hlt⟩

/-- A register that holds a zero-extended field reads as the field. -/
theorem toNat_wrapX_field {n : Nat} (hn : n ≤ 32) (l : Xlen) (v : BitVec n) :
    (wrapX l (v.setWidth 64)).toNat = v.toNat :=
  toNat_wrapX_of_lt (toNat_field hn v).1 (toNat_field hn v).2

/-- The number of a single bit in place. -/
theorem toNat_bitAt (b : Bool) {pos : Nat} (h : pos < 64) :
    (bitAt b pos).toNat = if b then 2 ^ pos else 0 := by
  cases b
  · rfl
  · simp [bitAt, BitVec.toNat_shiftLeft, Nat.shiftLeft_eq,
      Nat.mod_eq_of_lt (Nat.pow_lt_pow_right (a := 2) (by decide) h)]

/-! ### The matrix CSRs -/

theorem csrRead_xmcsr (s : State) : (s.csrRead .xmcsr).toNat = s.xmxsat.toNat + 2 * s.xmxrm.toNat := by
  have hword : ∀ (sat : Bool) (rm : BitVec 2),
      (bitAt sat 0 ||| (rm.setWidth 64 <<< 1)).toNat = sat.toNat + 2 * rm.toNat := by decide
  have hsat := s.xmxsat.toNat_lt
  exact toNat_wrapX_of_lt (hword _ _) (by have := s.xmxrm.isLt; omega)

theorem csrRead_xmxsat (s : State) : (s.csrRead .xmxsat).toNat = s.xmxsat.toNat := by
  have hword : ∀ sat : Bool, (bitAt sat 0).toNat = sat.toNat := by decide
  exact toNat_wrapX_of_lt (hword _) (s.xmxsat.toNat_lt.trans (by decide))

theorem csrRead_xmsize (s : State) :
    (s.csrRead .xmsize).toNat = s.sizeM.toNat + 256 * s.sizeN.toNat + 65536 * s.sizeK.toNat := by
  have hword : (s.sizeK ++ s.sizeN ++ s.sizeM).toNat =
      s.sizeM.toNat + 256 * s.sizeN.toNat + 65536 * s.sizeK.toNat := by
    have hM := s.sizeM.isLt
    have hN := s.sizeN.isLt
    rw [BitVec.toNat_append, ← Nat.shiftLeft_add_eq_or_of_lt hM, BitVec.toNat_append,
      ← Nat.shiftLeft_add_eq_or_of_lt hN]
    simp only [Nat.shiftLeft_eq]
    omega
  exact (toNat_wrapX_field (n := 16 + 8 + 8) (by decide) _ _).trans hword

theorem csrRead_xmlenb (s : State) : (s.csrRead .xmlenb).toNat = s.cfg.mlen.bits / 8 := by
  refine toNat_wrapX_of_lt ?_ ?_ <;> cases h : s.cfg.mlen <;> simp [Config.mlenb, h, Mlen.bits]

theorem csrRead_xmregsize (s : State) :
    (s.csrRead .xmregsize).toNat = s.cfg.mlen.bits / 32 * (s.cfg.mlen.bits / 8) := by
  refine toNat_wrapX_of_lt ?_ ?_ <;> cases h : s.cfg.mlen <;>
    simp [Config.regBytes, Config.rows, Config.mlenb, h, Mlen.bits]

/-! ### `fcsr` and `instret` -/

/-- `fcsr` as a number: the flags, the rounding mode and the bf16 selector do not overlap. -/
theorem toNat_fcsrWord (s : State) (hlo : 8 ≤ s.cfg.bf16Bit) (hhi : s.cfg.bf16Bit < 64) :
    s.fcsrWord.toNat = s.fflags.toNat + 32 * s.frm.toNat +
      if s.cfg.hasBf16 = true ∧ s.bf16 = true then 2 ^ s.cfg.bf16Bit else 0 := by
  have hflags := s.fflags.isLt
  have hfrm := s.frm.isLt
  have hlow : (s.fflags.setWidth 64 ||| (s.frm.setWidth 64 <<< 5)).toNat =
      s.fflags.toNat + 32 * s.frm.toNat := by
    have hshift : ((s.frm.setWidth 64 : Word) <<< 5).toNat = 2 ^ 5 * s.frm.toNat := by
      rw [BitVec.toNat_shiftLeft, (toNat_field (by decide) s.frm).1, Nat.shiftLeft_eq]
      omega
    rw [BitVec.toNat_or, hshift, (toNat_field (by decide) s.fflags).1, Nat.or_comm,
      ← Nat.two_pow_add_eq_or_of_lt hflags]
    omega
  rw [State.fcsrWord, BitVec.toNat_or, hlow, toNat_bitAt _ hhi]
  by_cases hb : (s.cfg.hasBf16 && s.bf16) = true
  · have hbelow : s.fflags.toNat + 32 * s.frm.toNat < 2 ^ s.cfg.bf16Bit :=
      Nat.lt_of_lt_of_le (by omega) (Nat.pow_le_pow_right (by decide : 0 < 2) hlo)
    rw [if_pos hb, if_pos (Bool.and_eq_true_iff.1 hb), Nat.or_comm]
    have := Nat.two_pow_add_eq_or_of_lt hbelow 1
    rw [Nat.mul_one] at this
    rw [← this, Nat.add_comm]
  · rw [if_neg hb, if_neg (fun h => hb (Bool.and_eq_true_iff.2 h)), Nat.or_zero, Nat.add_zero]

theorem csrRead_fcsr (s : State) (hlo : 8 ≤ s.cfg.bf16Bit) (hhi : s.cfg.bf16Bit < s.cfg.xlen.bits) :
    (s.csrRead .fcsr).toNat = s.fflags.toNat + 32 * s.frm.toNat +
      if s.cfg.hasBf16 = true ∧ s.bf16 = true then 2 ^ s.cfg.bf16Bit else 0 := by
  have hle : s.cfg.xlen.bits ≤ 64 := by cases s.cfg.xlen <;> simp [Xlen.bits]
  have hflags := s.fflags.isLt
  have hfrm := s.frm.isLt
  have hselector : 2 ^ (s.cfg.bf16Bit + 1) ≤ 2 ^ s.cfg.xlen.bits := Nat.pow_le_pow_right (by decide) hhi
  have hbelow : 2 ^ 8 ≤ 2 ^ s.cfg.bf16Bit := Nat.pow_le_pow_right (by decide) hlo
  refine (toNat_wrapX _ _).trans ?_
  show s.fcsrWord.toNat % _ = _
  rw [toNat_fcsrWord s hlo (by omega)]
  apply Nat.mod_eq_of_lt
  split <;> omega

/-- On RV32 the two halves make up the counter. -/
theorem csrRead_instret_halves (s : State) (h : s.cfg.xlen = .x32) :
    (s.csrRead .instret).toNat + 2 ^ 32 * (s.csrRead .instreth).toNat = s.instret.toNat := by
  have hlt := s.instret.isLt
  have hlo : (s.csrRead .instret).toNat = s.instret.toNat % 2 ^ 32 :=
    (toNat_wrapX _ _).trans (by rw [h]; rfl)
  have hhi : (s.csrRead .instreth).toNat = s.instret.toNat / 2 ^ 32 % 2 ^ 32 :=
    (toNat_wrapX _ _).trans (by rw [h, BitVec.toNat_ushiftRight, Nat.shiftRight_eq_div_pow]; rfl)
  omega

/-! ### Registers of `XLEN` bits -/

/-- A register of a well-formed state reads whole. -/
theorem State.Inv.wrapX_wordReg {s : State} (h : s.Inv) {w : Word} (hw : w ∈ s.wordRegs) :
    wrapX s.cfg.xlen w = w := wrapX_of_lt _ (h.words w hw)

/-- Settles O56, register by register. -/
theorem csrValues : Obligations.CsrValues := by
  intro s h
  have hword : ∀ w ∈ s.wordRegs, wrapX s.cfg.xlen w = w := fun w => h.wrapX_wordReg
  simp only [State.wordRegs, List.forall_mem_cons] at hword
  obtain ⟨-, hxmrstart, hmepc, hmcause, hmtval, hmtvec, hmedeleg, hmideleg, hsepc, hscause, hstval,
    hstvec, -⟩ := hword
  exact ⟨hxmrstart, csrRead_xmcsr s, toNat_wrapX_field (by decide) _ _, csrRead_xmxsat s, csrRead_xmsize s,
    csrRead_xmlenb s, csrRead_xmregsize s, toNat_wrapX_field (by decide) _ _,
    toNat_wrapX_field (by decide) _ _, toNat_wrapX_field (by decide) _ _, csrRead_fcsr s,
    hmtvec, hmedeleg, hmideleg, hmepc, hmcause, hmtval, hstvec, hsepc, hscause, hstval,
    fun hx => by rw [State.csrRead, hx]; rfl, csrRead_instret_halves s⟩

end Sys2Proof.Machine
end

section
/-! CSR accesses (family 10_state.md): what a write of a register leaves of the state, when an access passes its
checks, and what it then gives. -/

namespace Sys2Proof.Machine

/-! ### What a write leaves -/

@[simp] theorem State.csrWrite_cfg (s : State) (r : Csr) (v : Word) : (s.csrWrite r v).cfg = s.cfg := by
  cases r <;> rfl

@[simp] theorem State.csrWrite_pc (s : State) (r : Csr) (v : Word) : (s.csrWrite r v).pc = s.pc := by
  cases r <;> rfl

@[simp] theorem State.csrWrite_x (s : State) (r : Csr) (v : Word) : (s.csrWrite r v).x = s.x := by
  cases r <;> rfl

@[simp] theorem State.csrWrite_m (s : State) (r : Csr) (v : Word) : (s.csrWrite r v).m = s.m := by
  cases r <;> rfl

@[simp] theorem State.csrWrite_mem (s : State) (r : Csr) (v : Word) : (s.csrWrite r v).mem = s.mem := by
  cases r <;> rfl

@[simp] theorem State.csrWrite_priv (s : State) (r : Csr) (v : Word) : (s.csrWrite r v).priv = s.priv := by
  cases r <;> rfl

@[simp] theorem State.csrWrite_instret (s : State) (r : Csr) (v : Word) :
    (s.csrWrite r v).instret = s.instret := by
  cases r <;> rfl

/-- Only a write of `xmrstart` changes it. -/
theorem State.csrWrite_xmrstart (s : State) {r : Csr} (v : Word) (h : r ≠ .xmrstart) :
    (s.csrWrite r v).xmrstart = s.xmrstart := by
  cases r
  case xmrstart => exact absurd rfl h
  all_goals rfl

@[simp] theorem State.csrAfterRead_cfg (s : State) (r : Csr) : (s.csrAfterRead r).cfg = s.cfg := by
  unfold State.csrAfterRead
  split <;> rfl

/-! ### Checks -/

/-- The level and the unit's state let a register be accessed: `MS` is on for a matrix CSR, `FS` for a part of
`fcsr`. -/
structure State.Opens (s : State) (r : Csr) : Prop where
  level : r.allowed s.priv = true
  matrix : r.isMatrix = true → s.mstatus.ms ≠ 0#2
  float : r.isFloat = true → s.mstatus.fs ≠ 0#2

/-- The checks of an open register pass where a write is to a writable register and sets no reserved bit. -/
theorem csrChecks_pass {s : State} {r : Csr} {writes : Bool} {value : Word} (hopen : s.Opens r)
    (hwrite : writes = true → r.readOnly = false ∧ csrBitsOk r value = true) :
    ∀ c ∈ s.csrChecks r writes value, c.1 = false := by
  obtain ⟨hlevel, hmatrix, hfloat⟩ := hopen
  simp only [State.csrChecks, List.forall_mem_cons]
  refine ⟨by simp [hlevel], ?_, ?_, ?_, ?_, List.forall_mem_nil _⟩
  · cases hr : r.isMatrix
    · rfl
    · simp [hmatrix hr]
  · cases hr : r.isFloat
    · rfl
    · simp [hfloat hr]
  · cases writes
    · rfl
    · simp [(hwrite rfl).1]
  · cases writes
    · rfl
    · simp [(hwrite rfl).2]

/-- A CSR instruction that writes an open register. -/
theorem execHost_csr_write {s : State} {r : Csr} {addr : BitVec 12} (haddr : csrAt s.cfg addr = some r)
    (hopen : s.Opens r) {op : CsrOp} {src : XIdx} (hw : op = .write ∨ src ≠ 0) (hro : r.readOnly = false)
    (word : BitVec 32) (imm : Bool) (rd : XIdx)
    (hbits : csrBitsOk r (csrMade op (s.csrRead r) (s.csrArg imm src)) = true) :
    execHost (.csr op imm rd addr src) word s =
      .next ((s.csrWrite r (csrMade op (s.csrRead r) (s.csrArg imm src))).setX rd (s.csrRead r)).advance := by
  rw [execHost_csr haddr]
  simp only [csrWrites_iff.2 hw, if_true]
  exact guard_of_pass s word _ (csrChecks_pass hopen fun _ => ⟨hro, hbits⟩)

/-- A CSR instruction that reads an open register that is no timer. -/
theorem execHost_csr_read {s : State} {r : Csr} {addr : BitVec 12} (haddr : csrAt s.cfg addr = some r)
    (hopen : s.Opens r) (htimer : r.isTimer = false) {op : CsrOp} (hop : op ≠ .write)
    (word : BitVec 32) (imm : Bool) (rd : XIdx) :
    execHost (.csr op imm rd addr 0) word s = .next (s.setX rd (s.csrRead r)).advance := by
  have hreads : csrWrites op 0 = false := by
    rw [Bool.eq_false_iff, ne_eq, csrWrites_iff]
    simp [hop]
  have hafter : s.csrAfterRead r = s := by simp [State.csrAfterRead, htimer]
  rw [execHost_csr haddr]
  simp only [hreads, Bool.false_eq_true, if_false, hafter]
  exact guard_of_pass s word _ (csrChecks_pass hopen (by simp))

/-- What a CSR access answers as a next state. -/
theorem csrInstr_next {s t : State} {word : BitVec 32} {op : CsrOp} {imm : Bool} {rd src : XIdx}
    {addr : BitVec 12} (h : s.csrInstr word op imm rd addr src = .next t) :
    t = s.illegal word ∨ ∃ r v, t = ((s.csrWrite r v).setX rd (s.csrRead r)).advance ∨
      t = ((s.csrAfterRead r).setX rd (s.csrRead r)).advance := by
  unfold State.csrInstr at h
  split at h
  · rename_i r _
    rcases guard_eq_next h with ⟨h, -⟩ | h
    · cases h
      refine .inr ⟨r, csrNewValue op (s.csrRead r) (s.csrOperand imm src), ?_⟩
      split
      · exact .inl rfl
      · exact .inr rfl
    · exact .inl h
  · split at h
    · cases h
    · cases h
      exact .inl rfl

end Sys2Proof.Machine
end

section
/-! The constants (family 10_state.md): no step changes the configuration, and `xmlenb`, `xmregsize` and `xmisa` read
from it alone. -/

namespace Sys2Proof.Machine

/-! ### No step changes the configuration -/

@[simp] theorem State.takeException_cfg (s : State) (e : Exc) (tval : Word) :
    (s.takeException e tval).cfg = s.cfg := State.takeTrap_cfg ..

@[simp] theorem State.illegal_cfg (s : State) (word : BitVec 32) : (s.illegal word).cfg = s.cfg :=
  State.takeException_cfg ..

@[simp] theorem State.afterFetch_cfg (s : State) : s.afterFetch.cfg = s.cfg := by
  unfold State.afterFetch
  split <;> rfl

/-- A stop that answers a next state is IllegalInstruction. -/
theorem stop_eq_next {s t : State} {word : BitVec 32} {k : Stop} (h : s.stop word k = .next t) :
    t = s.illegal word := by
  rcases stop_cases s word k with hk | ⟨why, hk⟩ <;> rw [hk] at h <;> cases h
  rfl

/-- A matrix instruction. -/
theorem NextOf.cfg_kept {i : Instr} {s t : State} (h : NextOf i s t) : t.cfg = s.cfg := by
  cases h with
  | plain u _ _ hu ht => exact ht ▸ hu.host.cfg
  | illegal ht => exact ht ▸ s.illegal_cfg _
  | loadDone x n md _ _ _ ht => exact ht ▸ State.setGroup_cfg ..
  | loadPart x n md row reports _ _ _ _ ht =>
    exact ht ▸ (rowTrap_kept _ row reports).1.trans (hostKept_loadPart s x n md row).cfg
  | storeDone x ms3 _ _ ht => exact ht ▸ rfl
  | storePart x ms3 row reports _ _ _ ht => exact ht ▸ (rowTrap_kept _ row reports).1

/-- A host instruction. -/
theorem execHost_cfg {i : HostInstr} {word : BitVec 32} {s t : State} (h : execHost i word s = .next t) :
    t.cfg = s.cfg := by
  cases i with
  | csr op imm rd addr src =>
    rcases csrInstr_next h with rfl | ⟨r, v, rfl | rfl⟩ <;> simp
  | bne | mret | sret | sfenceVma =>
    simp only [execHost] at h
    split at h <;> cases h <;> simp
  | addi | lui => cases h; simp
  | ecall | ebreak => cases h; exact State.takeException_cfg ..
  | fence | fenceI | wfi => cases h; rfl

/-- A word that is no matrix instruction. -/
theorem otherWord_cfg {w : BitVec 32} {s t : State} (h : otherWord w s = .next t) : t.cfg = s.cfg := by
  unfold otherWord at h
  split at h
  · exact execHost_cfg h
  · split at h
    · exact stop_eq_next h ▸ s.illegal_cfg w
    · cases h

/-- Any word. -/
theorem runWord_cfg {w : BitVec 32} {s t : State} (h : runWord w s = .next t) : t.cfg = s.cfg := by
  unfold runWord at h
  split at h
  · exact (exec_next h).cfg_kept
  · exact stop_eq_next h ▸ s.illegal_cfg w
  · exact otherWord_cfg h

/-- Any step. -/
theorem step_cfg {s t : State} (h : step s = .next t) : t.cfg = s.cfg := by
  unfold step at h
  split at h
  · cases h
    exact State.takeException_cfg ..
  · exact (runWord_cfg h).trans s.afterFetch_cfg

/-! ### The constants -/

/-- The constant CSRs read from the configuration alone. -/
theorem csrRead_of_cfg {s t : State} (h : t.cfg = s.cfg) :
    ∀ r ∈ [Csr.xmlenb, .xmregsize, .xmisa], t.csrRead r = s.csrRead r := by
  simp [State.csrRead, h]

/-- With `MS` on, `xmlenb` and `xmregsize` are open to every level. -/
theorem opens_constants {s : State} (hms : s.mstatus.ms ≠ 0#2) :
    ∀ r ∈ [Csr.xmlenb, .xmregsize], s.Opens r ∧ r.isTimer = false := by
  simp only [List.forall_mem_cons]
  exact ⟨⟨⟨rfl, fun _ => hms, nofun⟩, rfl⟩, ⟨⟨rfl, fun _ => hms, nofun⟩, rfl⟩, List.forall_mem_nil _⟩

/-- Settles O10: the values and the read by the rules of CSR accesses, constancy because no step changes the
configuration. -/
theorem constantsKept : Obligations.ConstantsKept := by
  refine ⟨fun s => ⟨rfl, rfl, csrRead_xmregsize s, csrRead_xmlenb s, ?_⟩,
    fun s t h => ⟨step_cfg h, csrRead_of_cfg (step_cfg h)⟩⟩
  intro r hr word op imm rd addr haddr hms hop
  obtain ⟨hopen, htimer⟩ := opens_constants hms r hr
  exact execHost_csr_read haddr hopen htimer hop word imm rd

end Sys2Proof.Machine
end

section
/-! Writes of the status, floating-point and trap registers (family 10_state.md). -/

namespace Sys2Proof.Machine

/-! ### Bits of words -/

/-- A bit of a reduced word. -/
@[simp] theorem getLsbD_wrapX (l : Xlen) (w : Word) (k : Nat) :
    (wrapX l w).getLsbD k = (decide (k < l.bits) && w.getLsbD k) := by
  cases l
  · by_cases hk : k < 32
    · simp [wrapX, Xlen.bits, hk, show k < 64 by omega]
    · simp [wrapX, Xlen.bits, hk]
  · by_cases hk : k < 64
    · simp [wrapX, Xlen.bits, hk]
    · simp [wrapX, Xlen.bits, hk, BitVec.getLsbD_of_ge w k (by omega)]

/-- A field of a reduced word is that of the word, where it lies below `XLEN`. -/
theorem extractLsb'_wrapX {l : Xlen} (w : Word) {lo len : Nat} (h : lo + len ≤ l.bits) :
    (wrapX l w).extractLsb' lo len = w.extractLsb' lo len := by
  apply BitVec.eq_of_getLsbD_eq
  intro i hi
  simp [hi, show lo + i < l.bits by omega]

/-- The lowest bits of a reduced word are those of the word. -/
theorem setWidth_wrapX (l : Xlen) (w : Word) {n : Nat} (h : n ≤ 32) :
    (wrapX l w).setWidth n = w.extractLsb' 0 n := by
  apply BitVec.eq_of_getLsbD_eq
  intro i hi
  have hl : i < l.bits := by cases l <;> simp only [Xlen.bits] <;> omega
  simp [hi, hl]

/-- A mask of bits keeps a reduced word reduced. -/
theorem wrapX_and (l : Xlen) (v mask : Word) : wrapX l (wrapX l v &&& mask) = wrapX l v &&& mask := by
  apply BitVec.eq_of_getLsbD_eq
  intro i _
  simp only [getLsbD_wrapX, BitVec.getLsbD_and]
  cases decide (i < l.bits) <;> simp

/-- The single bit of `bitAt`. -/
theorem getLsbD_bitAt (b : Bool) {pos k : Nat} (hk : k < 64) :
    (bitAt b pos).getLsbD k = (b && decide (k = pos)) := by
  cases b
  · simp [bitAt]
  · simp only [bitAt, if_true, BitVec.getLsbD_shiftLeft, hk, decide_true, Bool.true_and,
      BitVec.getLsbD_one]
    rw [Bool.eq_iff_iff]
    simp
    omega

/-! ### The status words -/

/-- A bit of `sstatus` above the supervisor's interrupt fields. -/
theorem getLsbD_sstatusWord (s : State) {k : Nat} (hlo : 9 ≤ k) (hhi : k < 64) :
    s.sstatusWord.getLsbD k =
      ((decide (13 ≤ k) && s.mstatus.fs.getLsbD (k - 13)) ||
        (decide (s.cfg.msPos ≤ k) && s.mstatus.ms.getLsbD (k - s.cfg.msPos)) ||
        ((s.mstatus.fs == 3#2 || s.mstatus.ms == 3#2) && decide (k = s.cfg.xlen.bits - 1))) := by
  have h1 : k ≠ 1 := by omega
  have h5 : k ≠ 5 := by omega
  have h8 : k ≠ 8 := by omega
  have hin : ∀ n, k - n < 64 := by omega
  simp only [State.sstatusWord, BitVec.getLsbD_or, getLsbD_bitAt _ hhi, h1, h5, h8, BitVec.getLsbD_shiftLeft,
    BitVec.getLsbD_setWidth, hhi, hin, decide_true, decide_false, Bool.and_false, Bool.false_or, Bool.true_and,
    ← not_lt, decide_not]

/-- From `FS` up, but for `MPRV`, `mstatus` shows what `sstatus` does. -/
theorem getLsbD_mstatusWord (s : State) {k : Nat} (hlo : 13 ≤ k) (hhi : k < 64) (hprv : k ≠ 17) :
    s.mstatusWord.getLsbD k = s.sstatusWord.getLsbD k := by
  have h3 : k ≠ 3 := by omega
  have h7 : k ≠ 7 := by omega
  simp [State.mstatusWord, getLsbD_bitAt _ hhi, h3, h7, hprv,
    BitVec.getLsbD_of_ge (Priv.code s.mstatus.mpp) (k - 11) (by omega)]

/-- `FS`, `MS` and the summary bit stand at their places in a register that shows them. -/
structure ShowsStatus (s : State) (word : Word) : Prop where
  ms : word.extractLsb' s.cfg.msPos 2 = s.mstatus.ms
  fs : word.extractLsb' 13 2 = s.mstatus.fs
  summary : word.getLsbD (s.cfg.xlen.bits - 1) = true ↔ s.mstatus.fs = 3#2 ∨ s.mstatus.ms = 3#2

/-- A word whose bits from `FS` up, but for `MPRV`, are those of `sstatus`, read at `XLEN` bits. -/
theorem showsStatus_of_bits {s : State} {word : Word} (hlo : 18 ≤ s.cfg.msPos)
    (hhi : s.cfg.msPos + 2 < s.cfg.xlen.bits)
    (hword : ∀ k, 13 ≤ k → k < 64 → k ≠ 17 → word.getLsbD k = s.sstatusWord.getLsbD k) :
    ShowsStatus s (wrapX s.cfg.xlen word) := by
  have hbits : s.cfg.xlen.bits ≤ 64 := by cases s.cfg.xlen <;> simp [Xlen.bits]
  have hbit : ∀ k, 13 ≤ k → k < s.cfg.xlen.bits → k ≠ 17 →
      (wrapX s.cfg.xlen word).getLsbD k =
        ((decide (13 ≤ k) && s.mstatus.fs.getLsbD (k - 13)) ||
          (decide (s.cfg.msPos ≤ k) && s.mstatus.ms.getLsbD (k - s.cfg.msPos)) ||
          ((s.mstatus.fs == 3#2 || s.mstatus.ms == 3#2) && decide (k = s.cfg.xlen.bits - 1))) := by
    intro k h13 hk h17
    rw [getLsbD_wrapX, hword k h13 (by omega) h17, getLsbD_sstatusWord s (by omega) (by omega)]
    simp [hk]
  constructor
  · apply BitVec.eq_of_getLsbD_eq
    intro i hi
    have hsd : s.cfg.msPos + i ≠ s.cfg.xlen.bits - 1 := by omega
    rw [BitVec.getLsbD_extractLsb', hbit _ (by omega) (by omega) (by omega),
      BitVec.getLsbD_of_ge s.mstatus.fs _ (by omega)]
    simp [hi, hsd]
  · apply BitVec.eq_of_getLsbD_eq
    intro i hi
    have hsd : 13 + i ≠ s.cfg.xlen.bits - 1 := by omega
    have hms : ¬ s.cfg.msPos ≤ 13 + i := by omega
    rw [BitVec.getLsbD_extractLsb', hbit _ (by omega) (by omega) (by omega)]
    simp [hi, hsd, hms]
  · rw [hbit _ (by omega) (by omega) (by omega), BitVec.getLsbD_of_ge s.mstatus.fs _ (by omega),
      BitVec.getLsbD_of_ge s.mstatus.ms _ (by omega)]
    simp

/-- Both status registers show `FS`, `MS` and the summary bit. -/
theorem showsStatus_csrRead {s : State} (hlo : 18 ≤ s.cfg.msPos) (hhi : s.cfg.msPos + 2 < s.cfg.xlen.bits) :
    ∀ r ∈ [Csr.mstatus, .sstatus], ShowsStatus s (s.csrRead r) := by
  simp only [List.forall_mem_cons]
  exact ⟨showsStatus_of_bits hlo hhi fun _ => getLsbD_mstatusWord s,
    showsStatus_of_bits hlo hhi fun _ _ _ _ => rfl, List.forall_mem_nil _⟩

/-! ### What an instruction that writes a register gives -/

/-- The CSR instruction completes: `x[rd]` holds the old value, no other register, no memory and no level changes,
and the state holds what the register makes of the new value. -/
def CsrSets (s : State) (word : BitVec 32) (op : CsrOp) (imm : Bool) (rd src : XIdx) (addr : BitVec 12) (r : Csr)
    (holds : Word → State → Prop) : Prop :=
  csrAt s.cfg addr = some r →
    ∃ t, execHost (.csr op imm rd addr src) word s = .next t ∧ t.pc = s.nextPc ∧
      t.instret = s.instret + 1 ∧ t.m = s.m ∧ t.mem = s.mem ∧ t.xmrstart = s.xmrstart ∧ t.priv = s.priv ∧
      (rd ≠ 0 → t.xval rd = s.csrRead r) ∧ (∀ k, k ≠ rd → t.xval k = s.xval k) ∧
      holds (csrMade op (s.csrRead r) (s.csrArg imm src)) t

/-- The state that a CSR instruction reaches by its write. -/
def State.csrWritten (s : State) (r : Csr) (v : Word) (rd : XIdx) : State :=
  ((s.csrWrite r v).setX rd (s.csrRead r)).advance

/-- What a register reads as has `XLEN` bits. -/
theorem wrapX_csrRead (s : State) (r : Csr) : wrapX s.cfg.xlen (s.csrRead r) = s.csrRead r := wrapX_wrapX ..

/-- An integer register depends on the configuration and the registers alone. -/
theorem xval_congr {s t : State} (hc : t.cfg = s.cfg) (hx : t.x = s.x) (k : XIdx) : t.xval k = s.xval k := by
  simp only [State.xval, hc, hx]

/-- A write of an open register that is no matrix CSR. -/
theorem csrSets_of_open {s : State} {r : Csr} (hmatrix : r.isMatrix = false) (hro : r.readOnly = false)
    (hlevel : r.allowed s.priv = true) (hfloat : r.isFloat = true → s.mstatus.fs ≠ 0#2) {op : CsrOp} {src : XIdx}
    (hw : op = .write ∨ src ≠ 0) (word : BitVec 32) (imm : Bool) (rd : XIdx) (addr : BitVec 12)
    {holds : Word → State → Prop} (hholds : ∀ v, holds v (s.csrWritten r v rd)) :
    CsrSets s word op imm rd src addr r holds := by
  intro haddr
  have hopen : s.Opens r := ⟨hlevel, by simp [hmatrix], hfloat⟩
  have hstart : r ≠ .xmrstart := by rintro rfl; cases hmatrix
  have hbits : ∀ v, csrBitsOk r v = true := by
    intro v
    cases r
    case xmxrm | xmcsr => cases hmatrix
    all_goals rfl
  refine ⟨_, execHost_csr_write haddr hopen hw hro word imm rd (hbits _), ?_, ?_, ?_, ?_, ?_, ?_, ?_, ?_,
    hholds _⟩
  · simp [State.nextPc]
  · simp
  · simp
  · simp
  · simp [State.csrWrite_xmrstart _ _ hstart]
  · simp
  · intro hrd
    refine (xval_setX_same _ _ hrd).trans ?_
    rw [State.csrWrite_cfg, wrapX_csrRead]
  · intro k hk
    exact (xval_setX_of_ne _ _ hk).trans (xval_congr (by simp) (by simp) k)

/-! ### The fields that a write sets -/

@[simp] theorem State.csrWritten_mstatus (s : State) (r : Csr) (v : Word) (rd : XIdx) :
    (s.csrWritten r v rd).mstatus = (s.csrWrite r v).mstatus := by
  simp [State.csrWritten]

@[simp] theorem State.csrWritten_cfg (s : State) (r : Csr) (v : Word) (rd : XIdx) :
    (s.csrWritten r v rd).cfg = s.cfg := by
  simp [State.csrWritten]

@[simp] theorem State.csrWritten_fflags (s : State) (r : Csr) (v : Word) (rd : XIdx) :
    (s.csrWritten r v rd).fflags = (s.csrWrite r v).fflags := by
  simp [State.csrWritten]

@[simp] theorem State.csrWritten_frm (s : State) (r : Csr) (v : Word) (rd : XIdx) :
    (s.csrWritten r v rd).frm = (s.csrWrite r v).frm := by
  simp [State.csrWritten]

@[simp] theorem State.csrWritten_bf16 (s : State) (r : Csr) (v : Word) (rd : XIdx) :
    (s.csrWritten r v rd).bf16 = (s.csrWrite r v).bf16 := by
  simp [State.csrWritten]

/-- The fields that `sstatus` shares with `mstatus` are those of a value, and both registers show them. -/
def StatusIs (s : State) (v : Word) (t : State) : Prop :=
  t.mstatus.ms = v.extractLsb' s.cfg.msPos 2 ∧ t.mstatus.fs = v.extractLsb' 13 2 ∧
    t.mstatus.sie = v.getLsbD 1 ∧ t.mstatus.spie = v.getLsbD 5 ∧ t.mstatus.spp = v.getLsbD 8 ∧
    ∀ r ∈ [Csr.mstatus, .sstatus],
      (t.csrRead r).extractLsb' s.cfg.msPos 2 = t.mstatus.ms ∧
      (t.csrRead r).extractLsb' 13 2 = t.mstatus.fs ∧
      ((t.csrRead r).getLsbD (s.cfg.xlen.bits - 1) = true ↔ t.mstatus.fs = 3#2 ∨ t.mstatus.ms = 3#2)

/-- A low bit of a reduced word is that of the word. -/
theorem getLsbD_wrapX_low (l : Xlen) (v : Word) {k : Nat} (h : k < 32) :
    (wrapX l v).getLsbD k = v.getLsbD k := by
  have hk : k < l.bits := by cases l <;> simp only [Xlen.bits] <;> omega
  simp [hk]

/-- A state whose shared status fields are those of a written value. -/
theorem statusIs_of_fields {s t : State} {v : Word} {f : MStatus} (hcfg : t.cfg = s.cfg)
    (hlo : 18 ≤ s.cfg.msPos) (hhi : s.cfg.msPos + 2 < s.cfg.xlen.bits) (ht : t.mstatus = f)
    (hf : f.ms = (wrapX s.cfg.xlen v).extractLsb' s.cfg.msPos 2 ∧ f.fs = (wrapX s.cfg.xlen v).extractLsb' 13 2 ∧
      f.sie = (wrapX s.cfg.xlen v).getLsbD 1 ∧ f.spie = (wrapX s.cfg.xlen v).getLsbD 5 ∧
      f.spp = (wrapX s.cfg.xlen v).getLsbD 8) : StatusIs s v t := by
  obtain ⟨hms, hfs, hsie, hspie, hspp⟩ := ht ▸ hf
  rw [extractLsb'_wrapX v (by omega)] at hms hfs
  rw [getLsbD_wrapX_low _ _ (by decide)] at hsie hspie hspp
  refine ⟨hms, hfs, hsie, hspie, hspp, fun r hr => ?_⟩
  obtain ⟨sms, sfs, ssd⟩ := showsStatus_csrRead (s := t) (by rwa [hcfg]) (by rwa [hcfg]) r hr
  rw [hcfg] at sms ssd
  exact ⟨sms, sfs, ssd⟩

/-- A write of `mstatus`. -/
theorem csrWritten_mstatus_fields (s : State) (v : Word) (rd : XIdx) (hlo : 18 ≤ s.cfg.msPos)
    (hhi : s.cfg.msPos + 2 < s.cfg.xlen.bits) :
    let t := s.csrWritten .mstatus v rd
    StatusIs s v t ∧ t.mstatus.mie = v.getLsbD 3 ∧ t.mstatus.mpie = v.getLsbD 7 ∧
      t.mstatus.mprv = v.getLsbD 17 := by
  have ht := s.csrWritten_mstatus .mstatus v rd
  refine ⟨statusIs_of_fields (s.csrWritten_cfg ..) hlo hhi ht ⟨rfl, rfl, rfl, rfl, rfl⟩, ?_, ?_, ?_⟩
  · exact ht ▸ getLsbD_wrapX_low _ _ (by decide)
  · exact ht ▸ getLsbD_wrapX_low _ _ (by decide)
  · exact ht ▸ getLsbD_wrapX_low _ _ (by decide)

/-- A write of `sstatus`, which leaves the machine fields alone. -/
theorem csrWritten_sstatus_fields (s : State) (v : Word) (rd : XIdx) (hlo : 18 ≤ s.cfg.msPos)
    (hhi : s.cfg.msPos + 2 < s.cfg.xlen.bits) :
    let t := s.csrWritten .sstatus v rd
    StatusIs s v t ∧ t.mstatus.mie = s.mstatus.mie ∧ t.mstatus.mpie = s.mstatus.mpie ∧
      t.mstatus.mpp = s.mstatus.mpp ∧ t.mstatus.mprv = s.mstatus.mprv := by
  have ht := s.csrWritten_mstatus .sstatus v rd
  exact ⟨statusIs_of_fields (s.csrWritten_cfg ..) hlo hhi ht ⟨rfl, rfl, rfl, rfl, rfl⟩,
    ht ▸ rfl, ht ▸ rfl, ht ▸ rfl, ht ▸ rfl⟩

/-- A write of a part of `fcsr` makes `FS` Dirty and leaves `MS`. -/
theorem csrWritten_float (s : State) {r : Csr} (hr : r.isFloat = true) (v : Word) (rd : XIdx) :
    (s.csrWritten r v rd).mstatus.fs = 3#2 ∧ (s.csrWritten r v rd).mstatus.ms = s.mstatus.ms := by
  rw [State.csrWritten_mstatus]
  cases r
  case fflags | frm | fcsr => exact ⟨rfl, rfl⟩
  all_goals cases hr

/-- A write of `fcsr` sets the flags, the rounding mode and the bf16 selector. -/
theorem csrWritten_fcsr_fields (s : State) (v : Word) (rd : XIdx) :
    let t := s.csrWritten .fcsr v rd
    t.fflags = v.extractLsb' 0 5 ∧ t.frm = v.extractLsb' 5 3 ∧
      (s.cfg.hasBf16 = true → s.cfg.bf16Bit < s.cfg.xlen.bits → t.bf16 = v.getLsbD s.cfg.bf16Bit) := by
  have hfrm : 5 + 3 ≤ s.cfg.xlen.bits := by cases s.cfg.xlen <;> simp [Xlen.bits]
  refine ⟨?_, ?_, fun hhas hbit => ?_⟩
  · exact (s.csrWritten_fflags ..).trans (setWidth_wrapX _ _ (by decide))
  · exact (s.csrWritten_frm ..).trans (extractLsb'_wrapX _ hfrm)
  · have hset : (s.csrWrite .fcsr v).bf16 = (s.cfg.hasBf16 && (wrapX s.cfg.xlen v).getLsbD s.cfg.bf16Bit) := rfl
    rw [State.csrWritten_bf16, hset, hhas, getLsbD_wrapX]
    simp [hbit]

/-- A write of `frm` sets the rounding mode alone. -/
theorem csrWritten_frm_fields (s : State) (v : Word) (rd : XIdx) :
    let t := s.csrWritten .frm v rd
    t.frm = v.extractLsb' 0 3 ∧ t.fflags = s.fflags ∧ t.bf16 = s.bf16 :=
  ⟨(s.csrWritten_frm ..).trans (setWidth_wrapX _ _ (by decide)), s.csrWritten_fflags .., s.csrWritten_bf16 ..⟩

/-- A write of `fflags` sets the flags alone. -/
theorem csrWritten_fflags_fields (s : State) (v : Word) (rd : XIdx) :
    let t := s.csrWritten .fflags v rd
    t.fflags = v.extractLsb' 0 5 ∧ t.frm = s.frm ∧ t.bf16 = s.bf16 :=
  ⟨(s.csrWritten_fflags ..).trans (setWidth_wrapX _ _ (by decide)), s.csrWritten_frm .., s.csrWritten_bf16 ..⟩

/-! ### Trap registers -/

/-- A trap register that holds any value. -/
theorem csrWritten_plain (s : State) (v : Word) (rd : XIdx) :
    ∀ r ∈ [Csr.mcause, .mtval, .medeleg, .mideleg, .scause, .stval],
      (s.csrWritten r v rd).csrRead r = wrapX s.cfg.xlen v ∧ (s.csrWritten r v rd).mstatus = s.mstatus := by
  simp [State.csrRead, State.csrWritten, State.csrWrite, State.csrSet, Csr.isMatrix, Csr.isFloat]

/-- A trap vector register, whose mode is 0 or 1. -/
theorem csrWritten_tvec (s : State) (v : Word) (rd : XIdx) :
    ∀ r ∈ [Csr.mtvec, .stvec],
      (s.csrWritten r v rd).csrRead r = wrapX s.cfg.xlen v &&& ~~~2#64 ∧
        (s.csrWritten r v rd).mstatus = s.mstatus := by
  simp [State.csrRead, State.csrWritten, State.csrWrite, State.csrSet, Csr.isMatrix, Csr.isFloat, tvecValue,
    wrapX_and]

/-- The bits of an instruction address that are zero. -/
def epcLow (c : Config) : Word := if c.compressed then 1#64 else 3#64

/-- An exception pc is a value without those bits. -/
theorem epcValue_eq (c : Config) (v : Word) : epcValue c v = v &&& ~~~epcLow c := by
  unfold epcValue epcLow
  split <;> rfl

/-- An exception pc register, which holds an instruction address. -/
theorem csrWritten_epc (s : State) (v : Word) (rd : XIdx) :
    ∀ r ∈ [Csr.mepc, .sepc],
      (s.csrWritten r v rd).csrRead r = wrapX s.cfg.xlen v &&& ~~~epcLow s.cfg ∧
        (s.csrWritten r v rd).mstatus = s.mstatus := by
  simp [State.csrRead, State.csrWritten, State.csrWrite, State.csrSet, Csr.isMatrix, Csr.isFloat, epcValue_eq,
    wrapX_and]

/-! ### The obligation -/

/-- Settles O59, register by register: each is open under the clause's hypothesis, and its write sets its
fields. -/
theorem statusWrite : Obligations.StatusWrite := by
  intro s word op imm rd src addr hw sets shown floats
  have hsets : sets = CsrSets s word op imm rd src addr := rfl
  clear_value sets
  subst hsets
  have written : ∀ {r : Csr} {holds : Word → State → Prop}, r.isMatrix = false → r.readOnly = false →
      r.allowed s.priv = true → (r.isFloat = true → s.mstatus.fs ≠ 0#2) →
      (∀ v, holds v (s.csrWritten r v rd)) → CsrSets s word op imm rd src addr r holds :=
    fun hmatrix hro hlevel hfloat => csrSets_of_open hmatrix hro hlevel hfloat hw word imm rd addr
  have machine : ∀ {r : Csr}, r ∈ [Csr.mstatus, .mtvec, .medeleg, .mideleg, .mepc, .mcause, .mtval] →
      s.priv = .m → ∀ {holds : Word → State → Prop},
      (∀ v, holds v (s.csrWritten r v rd)) → CsrSets s word op imm rd src addr r holds := by
    intro r hr hpriv holds
    simp only [List.mem_cons, List.not_mem_nil, or_false] at hr
    rcases hr with rfl | rfl | rfl | rfl | rfl | rfl | rfl <;>
      exact written rfl rfl (by rw [hpriv]; rfl) nofun
  have supervisor : ∀ {r : Csr}, r ∈ [Csr.sstatus, .stvec, .sepc, .scause, .stval] →
      s.priv ≠ .u → ∀ {holds : Word → State → Prop},
      (∀ v, holds v (s.csrWritten r v rd)) → CsrSets s word op imm rd src addr r holds := by
    intro r hr hpriv holds
    simp only [List.mem_cons, List.not_mem_nil, or_false] at hr
    rcases hr with rfl | rfl | rfl | rfl | rfl <;>
      exact written rfl rfl (bne_iff_ne.2 hpriv) nofun
  refine ⟨fun hlo hhi => ⟨fun hpriv => ?_, fun hpriv => ?_⟩, fun hfs => ⟨?_, ?_, ?_⟩, fun r hr hpriv => ?_,
    fun r hr hpriv => ?_, fun hpriv => ?_, fun hpriv => ?_, fun hpriv => ?_, fun hpriv => ?_⟩
  · exact machine (by simp) hpriv fun v => csrWritten_mstatus_fields s v rd hlo hhi
  · exact supervisor (by simp) hpriv fun v => csrWritten_sstatus_fields s v rd hlo hhi
  · refine written rfl rfl rfl (fun _ => hfs) fun v => ?_
    obtain ⟨hflags, hfrm, hbf16⟩ := csrWritten_fcsr_fields s v rd
    exact ⟨csrWritten_float s rfl v rd, hflags, hfrm, fun hhas _ => hbf16 hhas⟩
  · exact written rfl rfl rfl (fun _ => hfs) fun v => ⟨csrWritten_float s rfl v rd, csrWritten_frm_fields s v rd⟩
  · exact written rfl rfl rfl (fun _ => hfs) fun v => ⟨csrWritten_float s rfl v rd, csrWritten_fflags_fields s v rd⟩
  · refine machine ?_ hpriv fun v => csrWritten_plain s v rd r ?_ <;> revert r <;> decide
  · refine supervisor ?_ hpriv fun v => csrWritten_plain s v rd r ?_ <;> revert r <;> decide
  · exact machine (by simp) hpriv fun v => csrWritten_tvec s v rd .mtvec (by simp)
  · exact supervisor (by simp) hpriv fun v => csrWritten_tvec s v rd .stvec (by simp)
  · exact machine (by simp) hpriv fun v => csrWritten_epc s v rd .mepc (by simp)
  · exact supervisor (by simp) hpriv fun v => csrWritten_epc s v rd .sepc (by simp)

end Sys2Proof.Machine
end

section
/-! Every step keeps the invariant (family 20_memory.md): one lemma for each operation on the state, and from them
every outcome of a step. -/

namespace Sys2Proof.Machine

/-! ### Words of `XLEN` bits -/

/-- A mask of bits does not make a word longer. -/
theorem toNat_and_lt {w : Word} {n : Nat} (mask : Word) (h : w.toNat < n) : (w &&& mask).toNat < n := by
  rw [BitVec.toNat_and]
  exact Nat.and_le_left.trans_lt h

/-- A number of 32 bits fits a register of either `XLEN`. -/
theorem lt_two_pow_xlen (l : Xlen) {n : Nat} (h : n < 2 ^ 32) : n < 2 ^ l.bits :=
  h.trans_le (Nat.pow_le_pow_right (by decide) (by cases l <;> decide))

/-- A number that fits a register is the word that holds it. -/
theorem toNat_ofNat_lt (l : Xlen) {n : Nat} (h : n < 2 ^ l.bits) : (BitVec.ofNat 64 n).toNat < 2 ^ l.bits :=
  (BitVec.toNat_ofNat n 64 ▸ Nat.mod_le n _).trans_lt h

namespace State.Inv

variable {s t : State}

/-! ### States that differ in some parts -/

/-- A state with the same memory and integer registers, whose matrix registers are kept or built of rows, and whose
word registers have `XLEN` bits. -/
theorem of_built (h : s.Inv) (hcfg : t.cfg = s.cfg) (hx : t.x = s.x) (hmem : t.mem = s.mem)
    (hm : ∀ q : MIdx, t.m[q.toNat]'q.isLt = s.m[q.toNat]'q.isLt ∨
      ∃ f, t.m[q.toNat]'q.isLt = rowsOf s.cfg f)
    (hw : ∀ w ∈ t.wordRegs, w.toNat < 2 ^ s.cfg.xlen.bits) : t.Inv where
  mem_wf := by rw [hmem]; exact h.mem_wf
  mem_below := by rw [hmem, hcfg]; exact h.mem_below
  reg_rows q := by
    rw [hcfg]
    rcases hm q with hq | ⟨f, hq⟩ <;> rw [hq]
    · exact h.reg_rows q
    · exact length_rowsOf s.cfg f
  row_bits q row hrow := by
    rw [hcfg]
    rcases hm q with hq | ⟨f, hq⟩ <;> rw [hq] at hrow
    · exact h.row_bits q row hrow
    · obtain ⟨i, -, rfl⟩ := List.mem_map.1 hrow
      exact truncRow_lt s.cfg.mlen (f i)
  x_bits i := by simp only [hx, hcfg]; exact h.x_bits i
  x_zero := by simp only [hx]; exact h.x_zero
  words := by rw [hcfg]; exact hw

/-- A state that differs in word registers alone, as far as the invariant speaks of it. -/
theorem of_words (h : s.Inv) (hcfg : t.cfg = s.cfg) (hx : t.x = s.x) (hmem : t.mem = s.mem) (hm : t.m = s.m)
    (hw : ∀ w ∈ t.wordRegs, w ∈ s.wordRegs ∨ w.toNat < 2 ^ s.cfg.xlen.bits) : t.Inv :=
  h.of_built hcfg hx hmem (fun q => .inl (by simp only [hm])) fun w hwt => (hw w hwt).elim (h.words w) id

/-! ### Operations -/

/-- A write of an integer register, which discards one of `x0`. -/
theorem setX (h : s.Inv) (i : XIdx) (v : Word) : (s.setX i v).Inv := by
  unfold State.setX
  split
  · exact h
  · rename_i hi
    have hne : i.toNat ≠ 0 := fun e => hi (BitVec.eq_of_toNat_eq e)
    exact { h with
      x_bits := fun k => by
        simp only [Vector.getElem_set]
        split
        · exact wrapX_lt _ _
        · exact h.x_bits k
      x_zero := by
        simp only [Vector.getElem_set, if_neg hne]
        exact h.x_zero }

/-- A retired instruction. -/
theorem retire (h : s.Inv) : s.retire.Inv := { h with }

/-- Another `pc`. -/
theorem setPc (h : s.Inv) {pc : Word} (hpc : pc.toNat < 2 ^ s.cfg.xlen.bits) : ({ s with pc := pc } : State).Inv :=
  h.of_words rfl rfl rfl rfl (by simp [State.wordRegs, hpc])

/-- An instruction that is done. -/
theorem advance (h : s.Inv) : s.advance.Inv := h.retire.setPc (wrapX_lt _ _)

/-- Another `xmrstart`. -/
theorem setStart (h : s.Inv) {v : Word} (hv : v.toNat < 2 ^ s.cfg.xlen.bits) :
    ({ s with xmrstart := v } : State).Inv :=
  h.of_words rfl rfl rfl rfl (by simp [State.wordRegs, hv])

/-- `MS` made Dirty. -/
theorem dirtyMS (h : s.Inv) : s.dirtyMS.Inv := { h with }

/-- The epilogue. -/
theorem finish (h : s.Inv) : s.finish.Inv := (h.setStart (Nat.two_pow_pos _)).dirtyMS.advance

/-- A group of matrix registers built of rows. -/
theorem setGroup (h : s.Inv) (md : MIdx) {l : List MReg} (hl : ∀ v ∈ l, ∃ f, v = rowsOf s.cfg f) :
    (s.setGroup md l).Inv :=
  h.of_built (by simp) (by simp) (by simp) (fun q => (setGroup_get_cases s md q l).imp id (hl _))
    (by simpa [State.wordRegs] using h.words)

/-- Stored bytes inside the address space. -/
theorem storeBytes (h : s.Inv) {sure maybe : List Host.Cell}
    (ha : ∀ w ∈ sure ++ maybe, w.1 < 2 ^ s.cfg.xlen.bits) : (s.storeBytes sure maybe).Inv :=
  { h with mem_wf := storeBytes_wf h.mem_wf sure maybe, mem_below := storeBytes_below h.mem_below ha }

end State.Inv

/-! ### Traps -/

/-- The target of an exception is the base of the vector register. -/
theorem trapPc_lt (l : Xlen) {tvec : Word} (code : Nat) (h : tvec.toNat < 2 ^ l.bits) :
    (trapPc l tvec false code).toNat < 2 ^ l.bits := toNat_and_lt _ h

/-- The cause word of an exception is its code. -/
theorem causeWord_lt (l : Xlen) (e : Exc) : (causeWord l false e.code).toNat < 2 ^ l.bits := by
  have hcode : (causeWord l false e.code).toNat < 2 ^ 32 := by cases e <;> simp [causeWord, Exc.code]
  exact lt_two_pow_xlen l hcode

namespace State.Inv

variable {s t : State}

/-- An exception, to the machine or the supervisor level. -/
theorem takeException (h : s.Inv) (e : Exc) {tval : Word} (htval : tval.toNat < 2 ^ s.cfg.xlen.bits) :
    (s.takeException e tval).Inv := by
  have hmt : s.mtvec.toNat < 2 ^ s.cfg.xlen.bits := h.words _ (by simp [State.wordRegs])
  have hst : s.stvec.toNat < 2 ^ s.cfg.xlen.bits := h.words _ (by simp [State.wordRegs])
  refine h.of_words (State.takeTrap_cfg ..) (State.takeTrap_x ..) (State.takeTrap_mem ..) (State.takeTrap_m ..) ?_
  unfold State.takeException State.takeTrap
  split
  · simp [State.trapToS, State.wordRegs, htval, causeWord_lt, trapPc_lt, hst]
  · simp [State.trapToM, State.wordRegs, htval, causeWord_lt, trapPc_lt, hmt]

/-- IllegalInstruction. -/
theorem illegal (h : s.Inv) (word : BitVec 32) : (s.illegal word).Inv := by
  refine h.takeException .illegal (lt_two_pow_xlen _ ?_)
  split
  · exact (toNat_field le_rfl word).1 ▸ word.isLt
  · decide

/-- A breakpoint. -/
theorem breakpoint (h : s.Inv) : s.breakpoint.Inv := by
  refine h.takeException .breakpoint ?_
  split
  · exact h.words _ (by simp [State.wordRegs])
  · exact Nat.two_pow_pos _

/-- The trap of a row, with the number of the row and each trap value in range. -/
theorem rowTrap (h : s.Inv) {row : Nat} {reports : List (Exc × Nat)} (hne : reports ≠ [])
    (hrow : row < 2 ^ s.cfg.xlen.bits) (hr : ∀ r ∈ reports, r.2 < 2 ^ s.cfg.xlen.bits) :
    (s.rowTrap row reports).Inv := by
  have hstart : ∀ d, ({ s with xmrstart := BitVec.ofNat 64 row, draws := d } : State).Inv :=
    fun _ => { h.setStart (toNat_ofNat_lt _ hrow) with }
  exact (hstart _).dirtyMS.takeException _ (toNat_ofNat_lt _ (hr _ (pickReport_mem _ hne)))

/-- Return from machine mode. -/
theorem returnFromM (h : s.Inv) : s.returnFromM.Inv :=
  h.of_words rfl rfl rfl rfl (by simp [State.returnFromM, State.wordRegs])

/-- Return from supervisor mode. -/
theorem returnFromS (h : s.Inv) : s.returnFromS.Inv :=
  h.of_words rfl rfl rfl rfl (by simp [State.returnFromS, State.wordRegs])

/-- A stop that answers a next state. -/
theorem of_stop (h : s.Inv) {word : BitVec 32} {k : Stop} (ht : s.stop word k = .next t) : t.Inv :=
  stop_eq_next ht ▸ h.illegal word

end State.Inv

/-! ### Matrix instructions -/

/-- A trap value of an element is an address of the transfer. -/
theorem exists_addr_of_mem_reported {x : Transfer} {q k v : Nat} (h : v ∈ x.reported q k) :
    ∃ c, v = x.addr q c := by
  unfold Transfer.reported at h
  split at h
  · obtain ⟨b, -, rfl⟩ := List.mem_map.1 h
    exact ⟨_, rfl⟩
  · exact ⟨_, List.mem_singleton.1 h⟩

/-- The row and the trap values of a transfer that traps fit registers of `XLEN` bits. -/
theorem faults_bounded {s : State} {store : Bool} {x : Transfer} {row : Nat} {reports : List (Exc × Nat)}
    (hx : x.bounded s) (hf : s.trouble store x = some (.faults row reports)) :
    reports ≠ [] ∧ row < 2 ^ s.cfg.xlen.bits ∧ ∀ r ∈ reports, r.2 < 2 ^ s.cfg.xlen.bits := by
  obtain ⟨hrows, haddr⟩ := hx
  obtain ⟨-, hrow, hreports, hne, -, -⟩ := trouble_faults hf
  refine ⟨hne, lt_two_pow_xlen _ (by omega), fun r hr => ?_⟩
  rw [hreports] at hr
  obtain ⟨k, -, hk⟩ := List.mem_flatMap.1 hr
  obtain ⟨c, hc⟩ := exists_addr_of_mem_reported (mem_elemFaults hk)
  exact hc ▸ haddr row c

/-- The cells that rows of a store write, or may write, lie in the address space. -/
theorem cellsOf_bounded {s : State} {x : Transfer} (hx : x.bounded s) {f : Nat → List Host.Cell}
    (hf : ∀ q, ∀ w ∈ f q, ∃ c, w.1 = x.addr q c) (first last : Nat) :
    ∀ w ∈ State.cellsOf f first last, w.1 < 2 ^ s.cfg.xlen.bits := by
  intro w hw
  obtain ⟨q, -, -, hwq⟩ := mem_cellsOf.1 hw
  obtain ⟨c, hc⟩ := hf q w hwq
  exact hc ▸ hx.2 q c

/-- A row of a store writes at the addresses of the row. -/
theorem addr_of_mem_rowCells (s : State) (x : Transfer) (ms3 : MIdx) (q : Nat) :
    ∀ w ∈ s.rowCells x ms3 q, ∃ c, w.1 = x.addr q c := by
  intro w hw
  obtain ⟨c, -, rfl⟩ := mem_rowCells.1 hw
  exact ⟨c, rfl⟩

/-- So does a row that a trap cuts off. -/
theorem addr_of_mem_rowMaybe (s : State) (x : Transfer) (ms3 : MIdx) (q : Nat) :
    ∀ w ∈ s.rowMaybe x ms3 q, ∃ c, w.1 = x.addr q c := by
  intro w hw
  obtain ⟨c, -, rfl⟩ := mem_rowMaybe hw
  exact ⟨c, rfl⟩

/-- The registers of a load are built of rows. -/
theorem groupOf_rows (s : State) (n : Nat) (f : Nat → Row) : ∀ v ∈ s.groupOf n f, ∃ g, v = rowsOf s.cfg g := by
  intro v hv
  obtain ⟨r, -, rfl⟩ := List.mem_map.1 hv
  exact ⟨_, rfl⟩

namespace State.Inv

variable {s t : State}

/-- A computation and the epilogue. -/
theorem finish_of_computed (h : s.Inv) {i : Instr} {u : State} (hu : Computed i s u) : u.finish.Inv := by
  obtain ⟨hmepc, hmcause, hmtval, hmtvec, hmedeleg, hmideleg⟩ := hu.host.mTrap
  obtain ⟨hsepc, hscause, hstval, hstvec⟩ := hu.host.sTrap
  have hnext : u.nextPc.toNat < 2 ^ s.cfg.xlen.bits := hu.host.cfg ▸ wrapX_lt u.cfg.xlen _
  have hwords := h.words
  refine h.of_built hu.host.cfg hu.host.x hu.mem hu.built ?_
  simp only [State.wordRegs, List.forall_mem_cons] at hwords ⊢
  simpa [hmepc, hmcause, hmtval, hmtvec, hmedeleg, hmideleg, hsepc, hscause, hstval, hstvec, hnext] using hwords.2.2

/-- The part of a load that a trap leaves done. -/
theorem loadPart (h : s.Inv) (x : Transfer) (n : Nat) (md : MIdx) (row : Nat) : (s.loadPart x n md row).Inv :=
  { h.setGroup md (groupOf_rows s n _) with }

/-- A trap after a part of an instruction that keeps the configuration. -/
theorem rowTrap_of_faults {u : State} (hu : u.Inv) (hcfg : u.cfg = s.cfg) {store : Bool} {x : Transfer}
    {row : Nat} {reports : List (Exc × Nat)} (hx : x.bounded s)
    (hf : s.trouble store x = some (.faults row reports)) : (u.rowTrap row reports).Inv := by
  obtain ⟨hne, hrow, hr⟩ := faults_bounded hx hf
  rw [← hcfg] at hrow hr
  exact hu.rowTrap hne hrow hr

/-- The rows of a store that completes. -/
theorem storeDone (h : s.Inv) {x : Transfer} (hx : x.bounded s) (ms3 : MIdx) : (s.storeDone x ms3).Inv :=
  h.storeBytes (List.forall_mem_append.2
    ⟨cellsOf_bounded hx (addr_of_mem_rowCells s x ms3) _ _, List.forall_mem_nil _⟩)

/-- The part of a store that a trap leaves done. -/
theorem storePart (h : s.Inv) {x : Transfer} (hx : x.bounded s) (ms3 : MIdx) (row : Nat) :
    (s.storePart x ms3 row).Inv :=
  h.storeBytes (List.forall_mem_append.2
    ⟨cellsOf_bounded hx (addr_of_mem_rowCells s x ms3) _ _, cellsOf_bounded hx (addr_of_mem_rowMaybe s x ms3) _ _⟩)

/-- A matrix instruction. -/
theorem of_exec (h : s.Inv) {i : Instr} (ht : exec i s = .next t) : t.Inv := by
  cases exec_next ht with
  | plain u _ _ hu ht => exact ht ▸ h.finish_of_computed hu
  | illegal ht => exact ht ▸ h.illegal _
  | loadDone x n md _ _ _ ht => exact ht ▸ (h.setGroup md (groupOf_rows s n _)).finish
  | loadPart x n md row reports _ hx _ hf ht =>
    exact ht ▸ (h.loadPart x n md row).rowTrap_of_faults (hostKept_loadPart s x n md row).cfg hx hf
  | storeDone x ms3 _ hx ht => exact ht ▸ (h.storeDone hx ms3).finish
  | storePart x ms3 row reports _ hx hf ht =>
    exact ht ▸ (h.storePart hx ms3 row).rowTrap_of_faults rfl hx hf

/-! ### Host instructions -/

/-- A write of a CSR: each register of `XLEN` bits takes a reduced value, or some of its bits. -/
theorem csrWrite (h : s.Inv) (r : Csr) (value : Word) : (s.csrWrite r value).Inv := by
  refine h.of_words (by simp) (by simp) (by simp) (by simp) ?_
  have hv : (wrapX s.cfg.xlen value).toNat < 2 ^ s.cfg.xlen.bits := wrapX_lt _ _
  have htvec : (tvecValue (wrapX s.cfg.xlen value)).toNat < 2 ^ s.cfg.xlen.bits := toNat_and_lt _ hv
  have hepc : (epcValue s.cfg (wrapX s.cfg.xlen value)).toNat < 2 ^ s.cfg.xlen.bits :=
    epcValue_eq .. ▸ toNat_and_lt _ hv
  cases r
  case xmrstart | medeleg | mideleg | mcause | mtval | scause | stval =>
    simp [State.csrWrite, State.csrSet, State.wordRegs, Csr.isMatrix, Csr.isFloat, hv]
  case mtvec | stvec => simp [State.csrWrite, State.csrSet, State.wordRegs, Csr.isMatrix, Csr.isFloat, htvec]
  case mepc | sepc => simp [State.csrWrite, State.csrSet, State.wordRegs, Csr.isMatrix, Csr.isFloat, hepc]
  all_goals exact fun w hw => .inl hw

/-- A read of a CSR draws a free value at most. -/
theorem csrAfterRead (h : s.Inv) (r : Csr) : (s.csrAfterRead r).Inv := by
  unfold State.csrAfterRead
  split
  · exact { h with }
  · exact h

/-- One of two next states. -/
theorem of_ite {c : Prop} [Decidable c] {a b : State}
    (ht : (if c then .next a else .next b : Host.Outcome State Fault Refusal) = .next t) (ha : a.Inv)
    (hb : b.Inv) : t.Inv := by
  split at ht <;> cases ht
  · exact ha
  · exact hb

/-- A host instruction. -/
theorem of_execHost (h : s.Inv) {i : HostInstr} {word : BitVec 32} (ht : execHost i word s = .next t) :
    t.Inv := by
  cases i with
  | addi | lui => cases ht; exact (h.setX _ _).advance
  | bne => exact of_ite ht h.advance (h.retire.setPc (wrapX_lt _ _))
  | csr op imm rd addr src =>
    rcases csrInstr_next ht with rfl | ⟨r, v, rfl | rfl⟩
    · exact h.illegal word
    · exact ((h.csrWrite r v).setX _ _).advance
    · exact ((h.csrAfterRead r).setX _ _).advance
  | mret => exact of_ite ht h.returnFromM.retire (h.illegal word)
  | sret => exact of_ite ht (h.illegal word) h.returnFromS.retire
  | fence | wfi => cases ht; exact h.advance
  | fenceI => cases ht; exact advance { h with }
  | ecall => cases ht; exact h.takeException _ (Nat.two_pow_pos _)
  | ebreak => cases ht; exact h.breakpoint
  | sfenceVma => exact of_ite ht (h.illegal word) h.advance

/-- A word that is no matrix instruction. -/
theorem of_otherWord (h : s.Inv) {w : BitVec 32} (ht : otherWord w s = .next t) : t.Inv := by
  unfold otherWord at ht
  split at ht
  · exact h.of_execHost ht
  · split at ht
    · exact h.of_stop ht
    · cases ht

/-! ### Steps -/

/-- Any word. -/
theorem of_runWord (h : s.Inv) {w : BitVec 32} (ht : runWord w s = .next t) : t.Inv := by
  unfold runWord at ht
  split at ht
  · exact h.of_exec ht
  · exact h.of_stop ht
  · exact h.of_otherWord ht

/-- A fetch draws free values at most. -/
theorem afterFetch (h : s.Inv) : s.afterFetch.Inv := by
  unfold State.afterFetch
  split
  · exact h
  · exact { h with }

/-- The trap value of a fetch exception is an instruction address. -/
theorem fetchFault_lt (h : s.Inv) {e : Exc} {tval : Word} (hf : s.fetchFault = some (e, tval)) :
    tval.toNat < 2 ^ s.cfg.xlen.bits := by
  unfold State.fetchFault at hf
  split at hf
  · obtain ⟨k, -, hk⟩ := List.exists_of_findSome?_eq_some hf
    have haddr : s.fetchAddr (k / 2 * 2) < 2 ^ s.cfg.xlen.bits := Nat.mod_lt _ (Nat.two_pow_pos _)
    unfold State.fetchByteFault at hk
    split at hk <;> cases hk <;> exact toNat_ofNat_lt _ haddr
  · cases hf
    exact h.words _ (by simp [State.wordRegs])

end State.Inv

/-- Settles O9: a fetch exception, or the effect of the fetched word after the fetch. -/
theorem invStep : Obligations.InvStep := by
  intro s t h ht
  unfold step at ht
  split at ht
  · rename_i e tval hf
    cases ht
    exact h.takeException e (h.fetchFault_lt hf)
  · exact h.afterFetch.of_runWord ht

end Sys2Proof.Machine
end

section
/-! Transfers that complete, and misaligned elements (family 20_memory.md): the checks of a load or store, what its
accesses give when they all reach memory, and what a misaligned first element does under each policy. -/

namespace Sys2Proof.Machine

/-! ### The checks of a transfer -/

/-- The check of `xmrstart` passes exactly if it is zero or names a row. -/
theorem startOk_iff {s : State} {rows : Nat} : s.startOk rows = true ↔ s.startsIn rows := by
  simp [State.startOk, State.startsIn]

/-- The checks of a normal or stream form pass where it executes. -/
theorem shapedChecks_pass {s : State} {esize : Nat} (hms : s.mstatus.ms ≠ 0#2)
    (hshape : s.validPW (8 * esize) = true) (hstart : s.startsIn s.sM) :
    ∀ c ∈ s.shapedChecks esize, c.1 = false := by
  have hoff : s.offGate.1 = false := by simpa [State.offGate] using hms
  simp [State.shapedChecks, hoff, hshape, startOk_iff.2 hstart]

/-- The checks of a whole-register form pass where it executes. -/
theorem wholeChecks_pass {s : State} {n : Nat} {reg : MIdx} (hms : s.mstatus.ms ≠ 0#2)
    (hreg : reg.toNat % n = 0) (hstart : s.startsIn (n * s.cfg.rows)) :
    ∀ c ∈ s.wholeChecks n reg, c.1 = false := by
  have hoff : s.offGate.1 = false := by simpa [State.offGate] using hms
  simp [State.wholeChecks, hoff, groupOk, hreg, startOk_iff.2 hstart]

/-- A normal or stream load runs its transfer. -/
theorem exec_shapedLoads {s : State} {md : MIdx} {rs2 rs1 : XIdx} (hms : s.mstatus.ms ≠ 0#2)
    (hstart : s.startsIn s.sM) :
    ∀ p ∈ shapedLoads md rs2 rs1, s.validPW (8 * p.2) = true →
      exec p.1 s = s.runLoad (encode p.1) (s.shaped p.2 rs1 rs2) 1 md := by
  intro p hp hshape
  have hload : exec p.1 s = s.load (encode p.1) p.2 md rs2 rs1 := by fin_cases hp <;> rfl
  exact hload.trans (guard_of_pass s _ _ (shapedChecks_pass hms hshape hstart))

/-- A whole-register load runs its transfer. -/
theorem exec_wholeLoads {s : State} {md : MIdx} {rs1 : XIdx} (hms : s.mstatus.ms ≠ 0#2) :
    ∀ p ∈ wholeLoads md rs1, md.toNat % p.2.1 = 0 → s.startsIn (p.2.1 * s.cfg.rows) →
      exec p.1 s = s.runLoad (encode p.1) (s.whole p.2.1 p.2.2 rs1) p.2.1 md := by
  intro p hp hreg hstart
  have hload : exec p.1 s = s.wholeLoad (encode p.1) p.2.1 p.2.2 md rs1 := by fin_cases hp <;> rfl
  exact hload.trans (guard_of_pass s _ _ (wholeChecks_pass hms hreg hstart))

/-- A normal or stream store runs its transfer. -/
theorem exec_shapedStores {s : State} {ms3 : MIdx} {rs2 rs1 : XIdx} (hms : s.mstatus.ms ≠ 0#2)
    (hstart : s.startsIn s.sM) :
    ∀ p ∈ shapedStores ms3 rs2 rs1, s.validPW (8 * p.2) = true →
      exec p.1 s = s.runStore (encode p.1) (s.shaped p.2 rs1 rs2) ms3 := by
  intro p hp hshape
  have hstore : exec p.1 s = s.store (encode p.1) p.2 ms3 rs2 rs1 := by fin_cases hp <;> rfl
  exact hstore.trans (guard_of_pass s _ _ (shapedChecks_pass hms hshape hstart))

/-- A whole-register store runs its transfer. -/
theorem exec_wholeStores {s : State} {ms3 : MIdx} {rs1 : XIdx} (hms : s.mstatus.ms ≠ 0#2) :
    ∀ p ∈ wholeStores ms3 rs1, ms3.toNat % p.2.1 = 0 → s.startsIn (p.2.1 * s.cfg.rows) →
      exec p.1 s = s.runStore (encode p.1) (s.whole p.2.1 p.2.2 rs1) ms3 := by
  intro p hp hreg hstart
  have hstore : exec p.1 s = s.wholeStore (encode p.1) p.2.1 p.2.2 ms3 rs1 := by fin_cases hp <;> rfl
  exact hstore.trans (guard_of_pass s _ _ (wholeChecks_pass hms hreg hstart))

/-! ### Transfers that go through -/

/-- A load whose accesses reach memory completes. -/
theorem loadCompletes_of_reachable {i : Instr} {s : State} {md : MIdx} {n : Nat} {t : Transfer} {word : BitVec 32}
    (hexec : exec i s = s.runLoad word t n md) (hn : n ≤ 8) (hr : s.reachable false t) :
    LoadCompletes i s md n t := by
  have hlen : (s.groupOf n (s.loadedRow t md)).length = n := by simp [State.groupOf]
  have hrun : exec i s = .next (s.loadDone t n md).finish := by
    rw [hexec, State.runLoad, trouble_of_reachable hr]
  have hrewrites := rewrites_setGroup s md (s.groupOf n (s.loadedRow t md))
  rw [hlen] at hrewrites
  refine ⟨_, hrun, hrewrites, by simp [SatKept, State.loadDone], by simp [FloatKept, State.loadDone], ?_⟩
  intro r q b hrn hq hb
  have hbits : 8 * (b + 1) ≤ s.cfg.mlen.bits := by
    have := (Config.rows_bounds s.cfg).2.2
    omega
  have hreg := setGroup_get s md (l := s.groupOf n (s.loadedRow t md)) (hlen.symm ▸ hrn) (hlen.symm ▸ hn)
  have hrow := groupOf_row s (s.loadedRow t md) (hlen.symm ▸ hrn) hq
  rw [State.el, State.mrow, State.finish_m, State.loadDone, hreg, hrow, State.finish_cfg, State.setGroup_cfg,
    truncRow_truncRow]
  exact byte_loadedRow s t md hq hb

/-- A store whose accesses reach memory completes. -/
theorem storeCompletes_of_reachable {i : Instr} {s : State} {ms3 : MIdx} {t : Transfer} {word : BitVec 32}
    (hexec : exec i s = s.runStore word t ms3) (hwf : s.mem.wf = true) (hr : s.reachable true t) :
    StoreCompletes i s ms3 t := by
  have hrun : exec i s = .next (s.storeDone t ms3).finish := by
    rw [hexec, State.runStore, trouble_of_reachable hr]
  have hcell : ∀ w, w ∈ State.cellsOf (s.rowCells t ms3) s.xmrstart.toNat t.rows ++ [] ↔
      ∃ q c, s.xmrstart.toNat ≤ q ∧ q < t.rows ∧ c < t.rowBytes ∧
        w = (t.addr q c, elem 8 (s.groupRow ms3 q) c) := by
    intro w
    simp only [List.append_nil, mem_cellsOf, mem_rowCells, exists_and_left]
  obtain ⟨hsat, hfloat, hsizes⟩ := (flagsAndSizesKept_storeBytes s
    (State.cellsOf (s.rowCells t ms3) s.xmrstart.toNat t.rows) []).finish
  refine ⟨_, hrun, finished_finish_of_eq rfl rfl rfl, (hostKept_storeBytes s _ _).finish, hsizes, hsat, hfloat,
    fun _ _ => rfl, fun a ha => ?_, ?_⟩
  · refine byteAt_storeBytes_of_notMem s fun w hw e => ?_
    obtain ⟨q, c, hlo, hhi, hc, rfl⟩ := (hcell w).1 hw
    exact ha q c ⟨hlo, hhi, hc, e⟩
  · rintro a ⟨q, c, hlo, hhi, hc, e⟩
    have hwritten := (hcell _).2 ⟨q, c, hlo, hhi, hc, rfl⟩
    have hvalue := byteAt_storeBytes_of_mem hwf ⟨_, hwritten, e⟩
    obtain ⟨q', c', hlo', hhi', hc', heq⟩ :=
      (hcell _).1 (mem_of_byteOptions hvalue ⟨_, by simpa using hwritten, e⟩)
    obtain ⟨haddr, hbyte⟩ := Prod.mk.inj heq
    exact ⟨q', c', ⟨hlo', hhi', hc', haddr.symm⟩, hbyte⟩

/-! ### Transfers that stop -/

/-- The outcome of a transfer that does not go through: a RESERVED access stops the instruction, and an exception is
the trap of its row, after a part of the transfer that keeps `pc` and the host state. -/
structure StopsOnTrouble (s : State) (store : Bool) (t : Transfer) (word : BitVec 32)
    (out : Host.Outcome State Fault Refusal) : Prop where
  reserved : ∀ why, s.trouble store t = some (.reserved why) → out = s.stop word (.reserved why)
  faults : ∀ row reports, s.trouble store t = some (.faults row reports) →
    ∃ u, HostKept s u ∧ u.pc = s.pc ∧ out = .next (u.rowTrap row reports)

/-- Loads. -/
theorem stopsOnTrouble_of_runLoad {s : State} {word : BitVec 32} {t : Transfer} {n : Nat} {md : MIdx}
    {out : Host.Outcome State Fault Refusal} (hout : out = s.runLoad word t n md) :
    StopsOnTrouble s false t word out where
  reserved why h := by rw [hout, State.runLoad, h]
  faults row reports h :=
    ⟨s.loadPart t n md row, hostKept_loadPart s t n md row, State.setGroup_pc ..,
      by rw [hout, State.runLoad, h]⟩

/-- Stores. -/
theorem stopsOnTrouble_of_runStore {s : State} {word : BitVec 32} {t : Transfer} {ms3 : MIdx}
    {out : Host.Outcome State Fault Refusal} (hout : out = s.runStore word t ms3) :
    StopsOnTrouble s true t word out where
  reserved why h := by rw [hout, State.runStore, h]
  faults row reports h :=
    ⟨s.storePart t ms3 row, hostKept_storeBytes s _ _, rfl, by rw [hout, State.runStore, h]⟩

/-- The trap of a row is taken with one of the reports. -/
theorem trapTaken_rowTrap_report {s u : State} (hk : HostKept s u) (hpc : u.pc = s.pc) (row : Nat)
    {reports : List (Exc × Nat)} (hne : reports ≠ []) :
    ∃ r ∈ reports, TrapTaken s (u.rowTrap row reports) r.1 (BitVec.ofNat 64 r.2) := by
  refine ⟨pickReport u.draws reports, pickReport_mem _ hne, TrapTaken.of_hostKept ?_ hk hpc⟩
  exact (trapTaken_takeException _ _ _).of_hostKept (s := u) (by constructor <;> simp) rfl

/-! ### Misaligned elements -/

/-- The elements of row 0 are aligned or misaligned together: they lie one element apart, and `2^XLEN` is a multiple
of an element. -/
structure Transfer.InPhase (t : Transfer) : Prop where
  pos : 0 < t.esize
  phase : ∀ k, t.addr 0 (k * t.esize) % t.esize = t.addr 0 0 % t.esize

/-- An address `k` elements on, wrapped at a multiple of an element. -/
theorem add_mul_mod_mod {e m : Nat} (h : e ∣ m) (a k : Nat) : (a + k * e) % m % e = (a + 0) % m % e := by
  rw [Nat.mod_mod_of_dvd _ h, Nat.mod_mod_of_dvd _ h, Nat.add_mul_mod_self_right, Nat.add_zero]

/-- Elements of 1, 2, 4 and 8 bytes divide the address space. -/
theorem esize_dvd {e : Nat} (h : e ∈ [1, 2, 4, 8]) (l : Xlen) : 0 < e ∧ e ∣ 2 ^ l.bits := by
  fin_cases h <;> cases l <;> decide

/-- Normal and stream transfers. -/
theorem inPhase_shaped (s : State) {e : Nat} (rs1 rs2 : XIdx) (h : e ∈ [1, 2, 4, 8]) :
    (s.shaped e rs1 rs2).InPhase :=
  ⟨(esize_dvd h s.cfg.xlen).1, fun k => add_mul_mod_mod (esize_dvd h s.cfg.xlen).2 _ k⟩

/-- Whole-register transfers. -/
theorem inPhase_whole (s : State) (n : Nat) {e : Nat} (rs1 : XIdx) (h : e ∈ [1, 2, 4, 8]) :
    (s.whole n e rs1).InPhase :=
  ⟨(esize_dvd h s.cfg.xlen).1, fun k => add_mul_mod_mod (esize_dvd h s.cfg.xlen).2 _ k⟩

/-- The widths of the normal and stream forms. -/
theorem esize_shaped (r : MIdx) (rs2 rs1 : XIdx) :
    (∀ p ∈ shapedLoads r rs2 rs1, p.2 ∈ [1, 2, 4, 8]) ∧ ∀ p ∈ shapedStores r rs2 rs1, p.2 ∈ [1, 2, 4, 8] := by
  simp [shapedLoads, shapedStores]

/-- The register counts and widths of the whole-register forms. -/
theorem esize_whole (r : MIdx) (rs1 : XIdx) :
    (∀ p ∈ wholeLoads r rs1, p.2.1 ≤ 8 ∧ p.2.2 ∈ [1, 2, 4, 8]) ∧
      ∀ p ∈ wholeStores r rs1, p.2.1 ≤ 8 ∧ p.2.2 ∈ [1, 2, 4, 8] := by
  simp [wholeLoads, wholeStores]

/-- With `xmrstart = 0`, what goes wrong in row 0 is what goes wrong. -/
theorem trouble_of_row_zero {s : State} {store : Bool} {t : Transfer} {x : Trouble} (hstart : s.xmrstart = 0)
    (hrows : 0 < t.rows) (h : s.rowTrouble store t 0 = some x) : s.trouble store t = some x := by
  obtain ⟨n, hn⟩ := Nat.exists_eq_add_of_lt hrows
  simp [State.trouble, hstart, hn, List.range'_succ, h]

/-- A row that an element fits has a first element. -/
theorem elems_eq_cons {t : Transfer} (hpos : 0 < t.esize) (hfit : t.esize ≤ t.rowBytes) :
    ∃ rest, t.elems = 0 :: rest := by
  obtain ⟨n, hn⟩ := Nat.exists_eq_add_of_lt (Nat.div_pos hfit hpos)
  exact ⟨(List.range n).map Nat.succ, by rw [Transfer.elems, hn, Nat.zero_add, List.range_succ_eq_map]⟩

/-- Under `refuse` a misaligned first element makes the row RESERVED. -/
theorem rowTrouble_of_refuse {s : State} {t : Transfer} (store : Bool) (hp : s.cfg.misalignedPolicy = .refuse)
    (hpos : 0 < t.esize) (hfit : t.esize ≤ t.rowBytes) (ha : t.aligned 0 0 = false) :
    s.rowTrouble store t 0 = some (.reserved .misaligned) := by
  obtain ⟨rest, helems⟩ := elems_eq_cons hpos hfit
  have hfirst : s.elemReserved store t 0 0 = some .misaligned := by
    simp [State.elemReserved, State.performs, ha, hp]
  simp [State.rowTrouble, helems, hfirst]

/-- Under `trap` a row of misaligned elements traps. -/
theorem rowTrouble_of_trap {s : State} {t : Transfer} (store : Bool) (hp : s.cfg.misalignedPolicy = .trap)
    (hpos : 0 < t.esize) (hfit : t.esize ≤ t.rowBytes) (ha : ∀ k, t.aligned 0 k = false) :
    ∃ reports, s.rowTrouble store t 0 = some (.faults 0 reports) := by
  obtain ⟨rest, helems⟩ := elems_eq_cons hpos hfit
  have hreserved : t.elems.findSome? (s.elemReserved store t 0) = none := by
    rw [List.findSome?_eq_none_iff]
    intro k _
    simp [State.elemReserved, State.performs, ha k, hp]
  have hreported : t.reported 0 0 ≠ [] := by
    unfold Transfer.reported
    split
    · simp [Transfer.elemBytes, hpos.ne']
    · simp
  have hfaults : t.elems.flatMap (s.elemFaults store t 0) ≠ [] := by
    simp [helems, elemFaults_of_misaligned hp (ha 0), hreported]
  obtain ⟨r, l, hcons⟩ := List.exists_cons_of_ne_nil hfaults
  exact ⟨r :: l, by simp [State.rowTrouble, hreserved, hcons]⟩

/-- An element that straddles a page has a byte on another page than its first. -/
theorem exists_of_straddles {t : Transfer} {q k : Nat} (h : t.straddles q k = true) :
    ∃ c < t.esize, t.addr q (k * t.esize + c) / 4096 ≠ t.addr q (k * t.esize) / 4096 := by
  simpa [Transfer.straddles, Transfer.elemBytes, pageBytes] using (Bool.and_eq_true_iff.1 h).2

/-- An outcome is that of a misaligned first element where misaligned elements are not split: RESERVED under
`refuse`; under `trap` the misaligned exception, with the address of an element of row 0 or a byte address of one
that straddles a page. -/
def StopsMisaligned (s : State) (out : Host.Outcome State Fault Refusal) (e : Exc) (t : Transfer) : Prop :=
  0 < t.rows → t.esize ≤ t.rowBytes → t.addr 0 0 % t.esize ≠ 0 →
    (s.cfg.misalignedPolicy = .refuse → s.cfg.reservedPolicy = .refuse →
      out = .refused (.reserved .misaligned)) ∧
    (s.cfg.misalignedPolicy = .trap →
      ∃ u k b, out = .next u ∧ u.xmrstart = 0 ∧ k < t.rowBytes / t.esize ∧ b < t.esize ∧
        TrapTaken s u e (BitVec.ofNat 64 (t.addr 0 (k * t.esize + b))) ∧
        (b = 0 ∨ ∃ c < t.esize,
          t.addr 0 (k * t.esize + c) / 4096 ≠ t.addr 0 (k * t.esize) / 4096))

/-- A transfer that stops on trouble stops so on a misaligned first element. -/
theorem StopsOnTrouble.misaligned {s : State} {store : Bool} {t : Transfer} {word : BitVec 32}
    {out : Host.Outcome State Fault Refusal} (h : StopsOnTrouble s store t word out) (hstart : s.xmrstart = 0)
    (ht : t.InPhase) : StopsMisaligned s out (if store then .storeMisaligned else .loadMisaligned) t := by
  intro hrows hfit hmis
  have ha : ∀ k, t.aligned 0 k = false := fun k => by simpa [Transfer.aligned, ht.phase k] using hmis
  refine ⟨fun hp hpolicy => ?_, fun hp => ?_⟩
  · have htrouble := trouble_of_row_zero hstart hrows (rowTrouble_of_refuse store hp ht.pos hfit (ha 0))
    rw [h.reserved _ htrouble, State.stop, hpolicy]
  · obtain ⟨reports, hrow⟩ := rowTrouble_of_trap store hp ht.pos hfit ha
    have htrouble := trouble_of_row_zero hstart hrows hrow
    obtain ⟨-, -, hreports, hne, -, -⟩ := trouble_faults htrouble
    obtain ⟨u, hk, hpc, hout⟩ := h.faults 0 reports htrouble
    obtain ⟨r, hr, htaken⟩ := trapTaken_rowTrap_report hk hpc 0 hne
    obtain ⟨-, -, -, hxm, -⟩ := rowTrap_kept u 0 reports
    rw [hreports] at hr
    obtain ⟨k, hkelem, hrk⟩ := List.mem_flatMap.1 hr
    rw [elemFaults_of_misaligned hp (ha k)] at hrk
    obtain ⟨v, hv, rfl⟩ := List.mem_map.1 hrk
    obtain ⟨b, hb, rfl, hpage⟩ := mem_reported ht.pos hv
    exact ⟨_, k, b, hout, hxm, List.mem_range.1 hkelem, hb, htaken, hpage.imp id exists_of_straddles⟩

/-- Settles O55: each of the four kinds of transfer runs after its checks, stops on a misaligned first element, and
under `split` completes when its bytes reach memory. -/
theorem misalignedElement : Obligations.MisalignedElement := by
  intro s r rs2 rs1 hms hstart
  obtain ⟨hshapedLoads, hshapedStores⟩ := esize_shaped r rs2 rs1
  obtain ⟨hwholeLoads, hwholeStores⟩ := esize_whole r rs1
  refine ⟨fun p hp hshape => ?_, fun p hp hreg => ?_, fun p hp hshape => ?_, fun p hp hreg => ?_⟩
  · have hexec := exec_shapedLoads hms (.inl hstart) p hp hshape
    exact ⟨(stopsOnTrouble_of_runLoad hexec).misaligned hstart
      (inPhase_shaped s rs1 rs2 (hshapedLoads p hp)), fun _ => loadCompletes_of_reachable hexec (by decide)⟩
  · have hexec := exec_wholeLoads hms p hp hreg (.inl hstart)
    exact ⟨(stopsOnTrouble_of_runLoad hexec).misaligned hstart
      (inPhase_whole s _ rs1 (hwholeLoads p hp).2), fun _ => loadCompletes_of_reachable hexec (hwholeLoads p hp).1⟩
  · have hexec := exec_shapedStores hms (.inl hstart) p hp hshape
    exact ⟨(stopsOnTrouble_of_runStore hexec).misaligned hstart
      (inPhase_shaped s rs1 rs2 (hshapedStores p hp)), fun _ => storeCompletes_of_reachable hexec⟩
  · have hexec := exec_wholeStores hms p hp hreg (.inl hstart)
    exact ⟨(stopsOnTrouble_of_runStore hexec).misaligned hstart
      (inPhase_whole s _ rs1 (hwholeStores p hp).2), fun _ => storeCompletes_of_reachable hexec⟩

end Sys2Proof.Machine
end

section
/-! The round trip of the decoder and the encoder, and the words that decode to nothing (family 30_encoding.md): the
decoder as a function of a word's format, then what each part of it says of the instruction it gives. -/

namespace Sys2Proof

/-! ### The immediate of the configuration format -/

/-- The two fields over which a 7-bit immediate is spread hold it, and the bits below it are 0. -/
theorem uimm7_fields (u : BitVec 7) :
    u.extractLsb' 2 5 ++ (u.extractLsb' 0 2 ++ 0#3).extractLsb' 3 2 = u ∧
      (u.extractLsb' 0 2 ++ 0#3).extractLsb' 0 3 = 0#3 :=
  ⟨by rw [BitVec.extractLsb'_append_eq_left]; exact BitVec.extractLsb'_append_extractLsb',
    BitVec.extractLsb'_append_eq_right⟩

/-- Settles O1, by the format of the instruction's word: there the decoder is the decoder of that format on the
operands, which computes. -/
theorem decodeEncode : Obligations.DecodeEncode := by
  intro i
  cases i
  case mldb | mldh | mldw | mldd | msldb | msldh | msldw | msldd | mld1mb | mld1mh | mld1mw | mld1md
      | mld2mb | mld2mh | mld2mw | mld2md | mld4mb | mld4mh | mld4mw | mld4md | mld8mb | mld8mh | mld8mw
      | mld8md => exact decode_loadWord ..
  case mstb | msth | mstw | mstd | msstb | mssth | msstw | msstd | mst1mb | mst1mh | mst1mw | mst1md
      | mst2mb | mst2mh | mst2mw | mst2md | mst4mb | mst4mh | mst4mw | mst4md | mst8mb | mst8mh | mst8mw
      | mst8md => exact decode_storeWord ..
  case mcfgki u | mcfgmi u | mcfgni u =>
    obtain ⟨himm, hlow⟩ := uimm7_fields u
    simp [encode, decode_cfgImmWord, decodeConfig, himm, hlow]
  case mcfgk | mcfgm | mcfgn | mcfg => exact decode_cfgRegWord ..
  -- the words left are those of the arithmetic format
  all_goals exact decode_arithWord _ _ _ _ _ _ _ (by decide)

/-! ### The decoder by format -/

/-- A word of the matrix opcode space (30_encoding.md R110). -/
def InMatrixSpace (w : BitVec 32) : Prop :=
  w.extractLsb' 0 7 = majorOpcode ∧ w.extractLsb' 12 3 = 0#3

/-- The decoder's case for a word outside the matrix opcode space. -/
theorem decode_of_not_inMatrixSpace {w : BitVec 32} (hw : ¬InMatrixSpace w) :
    decode w = .error .notMatrix :=
  if_pos (Classical.not_and_iff_not_or_not.1 hw)

section
variable {w : BitVec 32} (hw : InMatrixSpace w)
include hw

/-- The decoder's case for a word in the arithmetic format (30_encoding.md R111). -/
theorem decode_of_arith (hu : (w.extractLsb' 25 3).toNat < 4) :
    decode w = decodeArith (w.extractLsb' 28 4) (w.extractLsb' 25 3) (w.extractLsb' 24 1)
      (w.extractLsb' 21 3) (w.extractLsb' 18 3) (w.extractLsb' 15 3) (w.extractLsb' 10 2)
      (w.extractLsb' 7 3) := by
  obtain ⟨hmajor, hfunc3⟩ := hw
  have hu' : (w.extractLsb' 25 3).toNat = 0 ∨ (w.extractLsb' 25 3).toNat = 1 ∨
      (w.extractLsb' 25 3).toNat = 2 ∨ (w.extractLsb' 25 3).toNat = 3 := by omega
  simp only [decode, hmajor, hfunc3]
  rcases hu' with hu | hu | hu | hu <;> simp [hu]

/-- The decoder's case for a load. -/
theorem decode_of_load (hu : w.extractLsb' 25 3 = 4#3) :
    decode w = decodeLoad (w.extractLsb' 28 4) (w.extractLsb' 20 5) (w.extractLsb' 15 5)
      (w.extractLsb' 10 2) (w.extractLsb' 7 3) := by
  simp [decode, hw.1, hw.2, hu]

/-- The decoder's case for a store. -/
theorem decode_of_store (hu : w.extractLsb' 25 3 = 5#3) :
    decode w = decodeStore (w.extractLsb' 28 4) (w.extractLsb' 20 5) (w.extractLsb' 15 5)
      (w.extractLsb' 10 2) (w.extractLsb' 7 3) := by
  simp [decode, hw.1, hw.2, hu]

/-- The decoder's case for `uop = 110`. -/
theorem decode_of_uop_six (hu : w.extractLsb' 25 3 = 6#3) : decode w = .error (.reserved .uop) := by
  simp [decode, hw.1, hw.2, hu]

/-- The decoder's case for a word in the configuration format. -/
theorem decode_of_config (hu : w.extractLsb' 25 3 = 7#3) :
    decode w = decodeConfig (w.extractLsb' 31 1) (w.extractLsb' 28 3) (w.extractLsb' 20 5)
      (w.extractLsb' 15 5) (w.extractLsb' 7 5) := by
  simp [decode, hw.1, hw.2, hu]

end

/-! ### Words that decode to nothing -/

/-- The configuration indices 3 to 6 are unassigned: such a word is refused, be it for its index or for another
field. -/
theorem decodeConfig_of_index (reg : BitVec 1) {index : BitVec 3} (hi lo rd : BitVec 5)
    (hlow : 3 ≤ index.toNat) (hhigh : index.toNat ≤ 6) :
    ∃ why, decodeConfig reg index hi lo rd = .error (.reserved why) := by
  have h : index.toNat = 3 ∨ index.toNat = 4 ∨ index.toNat = 5 ∨ index.toNat = 6 := by omega
  unfold decodeConfig
  split_ifs
  · exact ⟨_, rfl⟩
  · exact ⟨_, rfl⟩
  · rcases h with h | h | h | h <;> exact ⟨.cfgIndex, by simp [h]⟩
  · exact ⟨_, rfl⟩
  · rcases h with h | h | h | h <;> exact ⟨.cfgIndex, by simp [h]⟩

/-- The `func` values from 10 on are unassigned. -/
theorem decodeArith_of_func {func : BitVec 4} (uop : BitVec 3) (b24 : BitVec 1) (ms2 ms1 r : BitVec 3)
    (size : BitVec 2) (md : MIdx) (h : 10 ≤ func.toNat) :
    decodeArith func uop b24 ms2 ms1 r size md = .error (.reserved .func) := by
  unfold decodeArith
  split
  case h_11 => rfl
  all_goals omega

/-- Settles O4, by the format that `uop` selects. -/
theorem unassignedReserved : Obligations.UnassignedReserved := by
  intro w hmajor hfunc3
  have hw : InMatrixSpace w := ⟨hmajor, hfunc3⟩
  refine ⟨fun hu => decode_of_uop_six hw hu, fun hu hlow hhigh => ?_, fun hu hfunc => ?_⟩
  · rw [decode_of_config hw hu]
    exact decodeConfig_of_index _ _ _ _ hlow hhigh
  · rw [decode_of_arith hw hu]
    exact decodeArith_of_func _ _ _ _ _ _ _ hfunc

/-! ### Words from their fields -/

/-- A word in the arithmetic format is joined from its fields. -/
theorem arithWord_of_word {w : BitVec 32} (hw : InMatrixSpace w) :
    arithWord (w.extractLsb' 28 4) (w.extractLsb' 25 3) (w.extractLsb' 24 1) (w.extractLsb' 21 3)
      (w.extractLsb' 18 3) (w.extractLsb' 15 3) (w.extractLsb' 10 2) (w.extractLsb' 7 3) = w := by
  refine eq_of_fields [(0, 7), (7, 3), (10, 2), (12, 3), (15, 3), (18, 3), (21, 3), (24, 1), (25, 3), (28, 4)]
    ?_ (by decide)
  obtain ⟨hmajor, hmd, hsize, hfunc3, hr, hms1, hms2, hb24, huop, hfunc⟩ :=
    arithWord_fields (w.extractLsb' 28 4) (w.extractLsb' 25 3) (w.extractLsb' 24 1) (w.extractLsb' 21 3)
      (w.extractLsb' 18 3) (w.extractLsb' 15 3) (w.extractLsb' 10 2) (w.extractLsb' 7 3)
  simp only [List.forall_mem_cons]
  exact ⟨hmajor.trans hw.1.symm, hmd, hsize, hfunc3.trans hw.2.symm, hr, hms1, hms2, hb24, huop, hfunc,
    List.forall_mem_nil _⟩

/-- A word in the load/store format is joined from its fields. -/
theorem memWord_of_word {w : BitVec 32} (hw : InMatrixSpace w) :
    memWord (w.extractLsb' 28 4) (w.extractLsb' 25 3) (w.extractLsb' 20 5) (w.extractLsb' 15 5)
      (w.extractLsb' 10 2) (w.extractLsb' 7 3) = w := by
  refine eq_of_fields [(0, 7), (7, 3), (10, 2), (12, 3), (15, 5), (20, 5), (25, 3), (28, 4)] ?_ (by decide)
  obtain ⟨hmajor, hreg, hsize, hfunc3, hrs1, hrs2, huop, hfunc⟩ :=
    memWord_fields (w.extractLsb' 28 4) (w.extractLsb' 25 3) (w.extractLsb' 20 5) (w.extractLsb' 15 5)
      (w.extractLsb' 10 2) (w.extractLsb' 7 3)
  simp only [List.forall_mem_cons]
  exact ⟨hmajor.trans hw.1.symm, hreg, hsize, hfunc3.trans hw.2.symm, hrs1, hrs2, huop, hfunc,
    List.forall_mem_nil _⟩

/-- A word in the immediate configuration format is joined from its fields. -/
theorem cfgImmWord_of_word {w : BitVec 32} (hw : InMatrixSpace w) (huop : w.extractLsb' 25 3 = 7#3)
    (hrd : w.extractLsb' 7 5 = 0#5) (hreg : w.extractLsb' 31 1 = 0#1)
    (hlow : (w.extractLsb' 15 5).extractLsb' 0 3 = 0#3) :
    cfgImmWord (w.extractLsb' 28 3) (w.extractLsb' 20 5 ++ (w.extractLsb' 15 5).extractLsb' 3 2) = w := by
  refine eq_of_fields [(0, 7), (7, 5), (12, 3), (15, 5), (20, 5), (25, 3), (28, 3), (31, 1)] ?_ (by decide)
  obtain ⟨fmajor, frd, ffunc3, flo, fhi, fuop, findex, freg⟩ :=
    cfgImmWord_fields (w.extractLsb' 28 3) (w.extractLsb' 20 5 ++ (w.extractLsb' 15 5).extractLsb' 3 2)
  rw [BitVec.extractLsb'_append_eq_left] at fhi
  rw [BitVec.extractLsb'_append_eq_right, ← hlow, BitVec.extractLsb'_append_extractLsb'] at flo
  simp only [List.forall_mem_cons]
  exact ⟨fmajor.trans hw.1.symm, frd.trans hrd.symm, ffunc3.trans hw.2.symm, flo, fhi,
    fuop.trans huop.symm, findex, freg.trans hreg.symm, List.forall_mem_nil _⟩

/-- A word in the register configuration format is joined from its fields. -/
theorem cfgRegWord_of_word {w : BitVec 32} (hw : InMatrixSpace w) (huop : w.extractLsb' 25 3 = 7#3)
    (hrd : w.extractLsb' 7 5 = 0#5) (hreg : w.extractLsb' 31 1 = 1#1) (hhi : w.extractLsb' 20 5 = 0#5) :
    cfgRegWord (w.extractLsb' 28 3) (w.extractLsb' 15 5) = w := by
  refine eq_of_fields [(0, 7), (7, 5), (12, 3), (15, 5), (20, 5), (25, 3), (28, 3), (31, 1)] ?_ (by decide)
  obtain ⟨fmajor, frd, ffunc3, frs1, fhi, fuop, findex, freg⟩ :=
    cfgRegWord_fields (w.extractLsb' 28 3) (w.extractLsb' 15 5)
  simp only [List.forall_mem_cons]
  exact ⟨fmajor.trans hw.1.symm, frd.trans hrd.symm, ffunc3.trans hw.2.symm, frs1, fhi.trans hhi.symm,
    fuop.trans huop.symm, findex, freg.trans hreg.symm, List.forall_mem_nil _⟩

/-! ### The word of an instruction that the arithmetic format gives -/

section
variable {func : BitVec 4} {uop : BitVec 3} {b24 : BitVec 1} {ms2 ms1 r : BitVec 3} {size : BitVec 2} {md : MIdx}
  {i : Instr}

/-- A field whose value is known is that constant. -/
theorem field_eq_ofNat {n k : Nat} {x : BitVec n} (h : x.toNat = k) : x = BitVec.ofNat n k :=
  (BitVec.toNat_eq_nat.1 h).2

/-- A move has the word that was decoded. -/
theorem encode_of_decodeMove (h : decodeMove uop b24 ms2 ms1 r size md = .ok i) :
    encode i = arithWord 0#4 uop b24 ms2 ms1 r size md := by
  unfold decodeMove at h
  split at h
  · cases h
  next hconst =>
    obtain ⟨rfl, rfl, rfl⟩ : b24 = 0#1 ∧ ms2 = 0#3 ∧ size = 0#2 := by
      simpa only [not_or, not_not, ne_eq] using hconst
    split at h
    next hu =>
      split at h <;> cases h
      next hr => rw [field_eq_ofNat hu, hr]; rfl
    next hu => cases h; rw [field_eq_ofNat hu]; rfl
    next hu => cases h; rw [field_eq_ofNat hu]; rfl
    next hu =>
      split at h <;> cases h
      next hms1 => rw [field_eq_ofNat hu, hms1]; rfl
    · cases h

/-- A float multiplication leaves the field `r` zero. -/
theorem unused_eq_ok {j : Instr} (h : decodeFloat.unused r j = .ok i) : r = 0#3 ∧ i = j := by
  unfold decodeFloat.unused at h
  split at h <;> cases h
  next hr => exact ⟨hr, rfl⟩

/-- A float matrix multiplication has the word that was decoded. -/
theorem encode_of_decodeFloat (h : decodeFloat uop b24 ms2 ms1 r size md = .ok i) :
    encode i = arithWord 1#4 uop b24 ms2 ms1 r size md := by
  unfold decodeFloat at h
  split at h
  · cases h
  next hu =>
    obtain rfl : uop = 0#3 := not_not.1 hu
    split at h
    case h_6 => cases h
    all_goals
      next hb24 hsize =>
        obtain ⟨rfl, rfl⟩ := unused_eq_ok h
        rw [field_eq_ofNat hb24, field_eq_ofNat hsize]
        rfl

/-- The four signedness forms of an integer multiplication have the words that differ in the field `r`. -/
structure SignWords (b24 : BitVec 1) (ms2 ms1 : BitVec 3) (size : BitVec 2) (md : MIdx) (ss uu us su : Instr) :
    Prop where
  ss : encode ss = arithWord 2#4 0#3 b24 ms2 ms1 0#3 size md
  uu : encode uu = arithWord 2#4 0#3 b24 ms2 ms1 1#3 size md
  us : encode us = arithWord 2#4 0#3 b24 ms2 ms1 2#3 size md
  su : encode su = arithWord 2#4 0#3 b24 ms2 ms1 3#3 size md

/-- The form that `r` selects has the word with that `r`. -/
theorem SignWords.encode_eq {ss uu us su : Instr} (hw : SignWords b24 ms2 ms1 size md ss uu us su)
    (h : decodeInt.bySign r ss uu us su = .ok i) : encode i = arithWord 2#4 0#3 b24 ms2 ms1 r size md := by
  unfold decodeInt.bySign at h
  split at h
  next hr => cases h; rw [field_eq_ofNat hr]; exact hw.ss
  next hr => cases h; rw [field_eq_ofNat hr]; exact hw.uu
  next hr => cases h; rw [field_eq_ofNat hr]; exact hw.us
  next hr => cases h; rw [field_eq_ofNat hr]; exact hw.su
  · cases h

/-- An integer matrix multiplication has the word that was decoded. -/
theorem encode_of_decodeInt (h : decodeInt uop b24 ms2 ms1 r size md = .ok i) :
    encode i = arithWord 2#4 uop b24 ms2 ms1 r size md := by
  unfold decodeInt at h
  split at h
  · cases h
  next hu =>
    obtain rfl : uop = 0#3 := not_not.1 hu
    split at h
    case h_4 => cases h
    all_goals
      next hb24 hsize =>
        rw [field_eq_ofNat hb24, field_eq_ofNat hsize]
        exact SignWords.encode_eq ⟨rfl, rfl, rfl, rfl⟩ h

/-- The four forms of a pointwise operation of one width have the words that differ in `uop`, with the field
that a form does not use zero (30_encoding.md R122). -/
structure FormWords (func : BitVec 4) (size : BitVec 2) (mm : MIdx → MIdx → MIdx → Instr)
    (mvx mvi : MIdx → MIdx → MIdx → BitVec 3 → Instr) (mx : MIdx → MIdx → XcIdx → Instr) : Prop where
  mm : ∀ md ms2 ms1, encode (mm md ms2 ms1) = arithWord func 0#3 0#1 ms2 ms1 0#3 size md
  mvx : ∀ md ms2 ms1 r, encode (mvx md ms2 ms1 r) = arithWord func 1#3 0#1 ms2 ms1 r size md
  mvi : ∀ md ms2 ms1 r, encode (mvi md ms2 ms1 r) = arithWord func 2#3 0#1 ms2 ms1 r size md
  mx : ∀ md ms2 r, encode (mx md ms2 r) = arithWord func 3#3 0#1 ms2 0#3 r size md

/-- The form that `uop` selects has the word with that `uop`. -/
theorem FormWords.encode_eq {mm : MIdx → MIdx → MIdx → Instr}
    {mvx mvi : MIdx → MIdx → MIdx → BitVec 3 → Instr} {mx : MIdx → MIdx → XcIdx → Instr}
    (hw : FormWords func size mm mvx mvi mx)
    (h : decodePointwise.form uop ms2 ms1 r md mm mvx mvi mx = .ok i) :
    encode i = arithWord func uop 0#1 ms2 ms1 r size md := by
  unfold decodePointwise.form at h
  split at h
  next hu =>
    split at h <;> cases h
    next hr => rw [field_eq_ofNat hu, hr]; exact hw.mm ..
  next hu => cases h; rw [field_eq_ofNat hu]; exact hw.mvx ..
  next hu => cases h; rw [field_eq_ofNat hu]; exact hw.mvi ..
  next hu =>
    split at h <;> cases h
    next hms1 => rw [field_eq_ofNat hu, hms1]; exact hw.mx ..
  · cases h

/-- A pointwise instruction has the word that was decoded. -/
theorem encode_of_decodePointwise (h : decodePointwise func uop b24 ms2 ms1 r size md = .ok i) :
    encode i = arithWord func uop b24 ms2 ms1 r size md := by
  unfold decodePointwise at h
  split at h
  · cases h
  next hb24 =>
    rw [not_not.1 hb24]
    split at h
    case h_15 => cases h
    all_goals
      next hfunc hsize =>
        rw [field_eq_ofNat hfunc, field_eq_ofNat hsize]
        exact FormWords.encode_eq
          ⟨fun _ _ _ => rfl, fun _ _ _ _ => rfl, fun _ _ _ _ => rfl, fun _ _ _ => rfl⟩ h

/-- An instruction of the arithmetic format has the word that was decoded. -/
theorem encode_of_decodeArith (h : decodeArith func uop b24 ms2 ms1 r size md = .ok i) :
    encode i = arithWord func uop b24 ms2 ms1 r size md := by
  unfold decodeArith at h
  split at h
  next hfunc => rw [field_eq_ofNat hfunc]; exact encode_of_decodeMove h
  next hfunc => rw [field_eq_ofNat hfunc]; exact encode_of_decodeFloat h
  next hfunc => rw [field_eq_ofNat hfunc]; exact encode_of_decodeInt h
  case h_11 => cases h
  all_goals exact encode_of_decodePointwise h

end

/-! ### The word of an instruction that the other formats give -/

section
variable {func : BitVec 4} {uop : BitVec 3} {rs2 rs1 : XIdx} {size : BitVec 2} {reg : MIdx} {i : Instr}

/-- The form that `size` selects has the word with that `size`. -/
theorem encode_bySize {b h w d : Instr} (hb : encode b = memWord func uop rs2 rs1 0#2 reg)
    (hh : encode h = memWord func uop rs2 rs1 1#2 reg) (hw : encode w = memWord func uop rs2 rs1 2#2 reg)
    (hd : encode d = memWord func uop rs2 rs1 3#2 reg) :
    encode (bySize size b h w d) = memWord func uop rs2 rs1 size reg := by
  have hsize : size = 0#2 ∨ size = 1#2 ∨ size = 2#2 ∨ size = 3#2 := by
    revert size; decide
  obtain rfl | rfl | rfl | rfl := hsize
  · exact hb
  · exact hh
  · exact hw
  · exact hd

/-- The field `rs2` of a whole-register transfer is its `nf`, which fills the low three bits
(30_encoding.md R118). -/
theorem rs2_eq_nf {nf : Nat} (hhigh : rs2.extractLsb' 3 2 = 0#2)
    (hnf : (rs2.extractLsb' 0 3).toNat = nf) : rs2 = 0#2 ++ BitVec.ofNat 3 nf := by
  rw [← field_eq_ofNat hnf, ← hhigh]
  exact (BitVec.extractLsb'_append_extractLsb' (w := 2) (len := 3)).symm

/-- A load has the word that was decoded. -/
theorem encode_of_decodeLoad (h : decodeLoad func rs2 rs1 size reg = .ok i) :
    encode i = memWord func 4#3 rs2 rs1 size reg := by
  unfold decodeLoad at h
  split at h
  next hfunc => cases h; rw [field_eq_ofNat hfunc]; exact encode_bySize rfl rfl rfl rfl
  next hfunc => cases h; rw [field_eq_ofNat hfunc]; exact encode_bySize rfl rfl rfl rfl
  next hfunc =>
    rw [field_eq_ofNat hfunc]
    split at h
    · cases h
    next hhigh =>
      split at h
      case h_5 => cases h
      all_goals
        next hnf =>
          cases h
          rw [rs2_eq_nf (not_not.1 hhigh) hnf]
          exact encode_bySize rfl rfl rfl rfl
  · cases h

/-- A store has the word that was decoded. -/
theorem encode_of_decodeStore (h : decodeStore func rs2 rs1 size reg = .ok i) :
    encode i = memWord func 5#3 rs2 rs1 size reg := by
  unfold decodeStore at h
  split at h
  next hfunc => cases h; rw [field_eq_ofNat hfunc]; exact encode_bySize rfl rfl rfl rfl
  next hfunc => cases h; rw [field_eq_ofNat hfunc]; exact encode_bySize rfl rfl rfl rfl
  next hfunc =>
    rw [field_eq_ofNat hfunc]
    split at h
    · cases h
    next hhigh =>
      split at h
      case h_5 => cases h
      all_goals
        next hnf =>
          cases h
          rw [rs2_eq_nf (not_not.1 hhigh) hnf]
          exact encode_bySize rfl rfl rfl rfl
  · cases h

/-- A configuration instruction has a word in the format that its top bit selects. -/
theorem encode_of_decodeConfig {reg : BitVec 1} {index : BitVec 3} {hi lo rd : BitVec 5}
    (h : decodeConfig reg index hi lo rd = .ok i) :
    rd = 0#5 ∧
      ((reg = 0#1 ∧ lo.extractLsb' 0 3 = 0#3 ∧ encode i = cfgImmWord index (hi ++ lo.extractLsb' 3 2)) ∨
        (reg = 1#1 ∧ hi = 0#5 ∧ encode i = cfgRegWord index lo)) := by
  unfold decodeConfig at h
  split at h
  · cases h
  next hrd =>
    refine ⟨not_not.1 hrd, ?_⟩
    split at h
    next hreg =>
      split at h
      · cases h
      next hlow =>
        refine .inl ⟨hreg, not_not.1 hlow, ?_⟩
        dsimp only at h
        split at h
        case h_4 => cases h
        all_goals
          next hindex => cases h; rw [field_eq_ofNat hindex]; rfl
    next hreg =>
      have hreg : reg = 1#1 := (BitVec.eq_zero_or_eq_one reg).resolve_left hreg
      split at h
      · cases h
      next hhi =>
        refine .inr ⟨hreg, not_not.1 hhi, ?_⟩
        split at h
        case h_5 => cases h
        all_goals
          next hindex => cases h; rw [field_eq_ofNat hindex]; rfl

end

/-- Settles O2, by the format that `uop` selects: an instruction has the word of the fields that were decoded, and a
word of the matrix opcode space is joined from its fields. -/
theorem encodeDecode : Obligations.EncodeDecode := by
  intro w i h
  by_cases hw : InMatrixSpace w
  case neg => rw [decode_of_not_inMatrixSpace hw] at h; cases h
  have huop : (w.extractLsb' 25 3).toNat < 4 ∨ w.extractLsb' 25 3 = 4#3 ∨ w.extractLsb' 25 3 = 5#3 ∨
      w.extractLsb' 25 3 = 6#3 ∨ w.extractLsb' 25 3 = 7#3 := by bv_omega
  obtain hu | hu | hu | hu | hu := huop
  · rw [decode_of_arith hw hu] at h
    exact (encode_of_decodeArith h).trans (arithWord_of_word hw)
  · rw [decode_of_load hw hu] at h
    exact (encode_of_decodeLoad h).trans (hu ▸ memWord_of_word hw)
  · rw [decode_of_store hw hu] at h
    exact (encode_of_decodeStore h).trans (hu ▸ memWord_of_word hw)
  · rw [decode_of_uop_six hw hu] at h
    cases h
  · rw [decode_of_config hw hu] at h
    obtain ⟨hrd, ⟨hreg, hlow, hword⟩ | ⟨hreg, hhi, hword⟩⟩ := encode_of_decodeConfig h
    · exact hword.trans (cfgImmWord_of_word hw hu hrd hreg hlow)
    · exact hword.trans (cfgRegWord_of_word hw hu hrd hreg hhi)

end Sys2Proof
end

section
/-! RESERVED cases of the prologue and of multiplications (family 30_encoding.md): a non-zero `xmrstart`, and a
destination that is a multiplicand. -/

namespace Sys2Proof.Machine

/-! ### A non-zero `xmrstart` -/

/-- The gates before step 5 pass when the unit is on, every feature is there and the float unit is ready. -/
theorem plainGates_pass {i : Instr} {s : State} {gates : List (Bool × Stop)} (hms : s.mstatus.ms ≠ 0#2)
    (hall : s.cfg.xmisa = 0x3FF#10) (hf : s.floatReady)
    (hgates : ∀ c ∈ gates, (∃ bit < 10, c = s.featureGate bit) ∨
      (isFloatMul i = true ∧ (c = s.fsGate ∨ c = s.frmGate))) :
    ∀ c ∈ s.offGate :: gates, c.1 = false := by
  refine List.forall_mem_cons.2 ⟨by simpa [State.offGate] using hms, fun c hc => ?_⟩
  obtain ⟨bit, hbit, rfl⟩ | ⟨-, rfl | rfl⟩ := hgates c hc
  · have hhas : s.cfg.xmisa.getLsbD bit = true := has_of_all hall hbit
    rw [State.featureGate, hhas]
    rfl
  · simpa [State.fsGate] using hf.1
  · simpa [State.frmGate] using hf.2

/-- Settles O22: by `exec_plain` the gates before step 5 are those of `MS`, features and floats, which pass. -/
theorem startRowReserved : Obligations.StartRowReserved := by
  intro i s hl hs hms hall hf hstart hpolicy
  obtain ⟨gates, operands, u, hexec, -, hgates⟩ := exec_plain i s hl hs
  rw [hexec]
  exact guard_refused (ok := s.xmrstart == 0) _ operands _ hpolicy (plainGates_pass hms hall hf hgates)
    (beq_eq_false_iff_ne.2 hstart)

/-! ### A destination that is a multiplicand -/

/-- Some destination register is a source register exactly if the two lists share one. -/
theorem disjointRegs_eq_false {dests sources : List MIdx} :
    disjointRegs dests sources = false ↔ ∃ d ∈ dests, d ∈ sources := by
  simp [disjointRegs]

/-- A float multiplication whose pairs are in order and whose destination is a multiplicand. -/
theorem floatMul_overlap {s : State} (word : BitVec 32) {k : FloatMulKind} {md ms2 ms1 : MIdx}
    (hr : s.ready) (hb : s.has k.bit) (hf : s.floatReady) (hpolicy : s.cfg.reservedPolicy = .refuse)
    (hB : (!k.pairB || pairOk ms2) = true) (hacc : accOk k.acc md = true)
    (hdisj : disjointRegs (accRegs k.acc md) (ms1 :: bRegs k.pairB ms2) = false) :
    s.floatMul word k md ms2 ms1 = .refused (.reserved .overlap) := by
  have hpass : ∀ c ∈ [s.offGate, s.featureGate k.bit, s.fsGate, s.frmGate, s.startGate] ++
      [needs (!k.pairB || pairOk ms2) .oddPair, needs (accOk k.acc md) .oddPair], c.1 = false :=
    List.forall_mem_append.2 ⟨floatGates_pass hr hb hf, by simp [hB, hacc]⟩
  exact guard_refused word _ _ hpolicy hpass hdisj

/-- An integer multiplication whose single destination is a multiplicand. -/
theorem intMul_overlap_single {s : State} (word : BitVec 32) (signs : Signs) (ws wd : Nat) {bit : Nat}
    {md ms2 ms1 : MIdx} (hr : s.ready) (hb : s.has bit) (hpolicy : s.cfg.reservedPolicy = .refuse)
    (hdisj : disjointRegs [md] [ms1, ms2] = false) :
    s.intMul word { signs, ws, wd, acc := .single, bit } md ms2 ms1 = .refused (.reserved .overlap) :=
  guard_refused word _ _ hpolicy (gates_pass hr hb) hdisj

/-- An integer multiplication whose destination pair holds a multiplicand. -/
theorem intMul_overlap_pair {s : State} (word : BitVec 32) (signs : Signs) (ws wd : Nat) {bit : Nat}
    {md ms2 ms1 : MIdx} (hr : s.ready) (hb : s.has bit) (hpolicy : s.cfg.reservedPolicy = .refuse)
    (hpair : pairOk md = true) (hdisj : disjointRegs [md, md + 1#3] [ms1, ms2] = false) :
    s.intMul word { signs, ws, wd, acc := .pair, bit } md ms2 ms1 = .refused (.reserved .overlap) :=
  guard_refused word _ _ hpolicy
    (List.forall_mem_append.2 ⟨gates_pass hr hb, List.forall_mem_singleton.2 (by simp [hpair])⟩) hdisj

/-- A register with an even number may start a pair. -/
theorem pairOk_of_even {r : MIdx} (h : r.toNat % 2 = 0) : pairOk r = true := beq_iff_eq.2 h

section Overlap

variable {s : State} {md ms2 ms1 : MIdx} (hr : s.ready) (hall : s.cfg.xmisa = 0x3FF#10)
  (hf : s.floatReady) (hpolicy : s.cfg.reservedPolicy = .refuse)

include hr hall hf hpolicy

/-- Single destinations. -/
theorem overlap_single (h : md = ms1 ∨ md = ms2) :
    ∀ i ∈ [Instr.fmmaccS md ms2 ms1, .fwmmaccH md ms2 ms1, .mmaqaB md ms2 ms1,
      .mmaqauB md ms2 ms1, .mmaqausB md ms2 ms1, .mmaqasuB md ms2 ms1, .pmmaqaB md ms2 ms1,
      .pmmaqauB md ms2 ms1, .pmmaqausB md ms2 ms1, .pmmaqasuB md ms2 ms1],
      exec i s = .refused (.reserved .overlap) := by
  have hdisj : disjointRegs [md] [ms1, ms2] = false := disjointRegs_eq_false.2 ⟨md, by simp, by simpa using h⟩
  have hint : ∀ word signs ws wd bit, bit < 10 →
      s.intMul word { signs, ws, wd, acc := .single, bit } md ms2 ms1 = .refused (.reserved .overlap) :=
    fun word signs ws wd bit hb => intMul_overlap_single word signs ws wd hr (has_of_all hall hb) hpolicy hdisj
  have hfloat : ∀ word op ws wd bit, bit < 10 →
      s.floatMul word { op, ws, wd, pairB := false, acc := .single, bit } md ms2 ms1 =
        .refused (.reserved .overlap) :=
    fun word op ws wd bit hb => floatMul_overlap word hr (has_of_all hall hb) hf hpolicy rfl rfl hdisj
  simp only [List.forall_mem_cons]
  exact ⟨hfloat _ _ _ _ _ (by decide), hfloat _ _ _ _ _ (by decide),
    hint _ _ _ _ _ (by decide), hint _ _ _ _ _ (by decide), hint _ _ _ _ _ (by decide),
    hint _ _ _ _ _ (by decide), hint _ _ _ _ _ (by decide), hint _ _ _ _ _ (by decide),
    hint _ _ _ _ _ (by decide), hint _ _ _ _ _ (by decide), List.forall_mem_nil _⟩

/-- Operand `B` in a pair. -/
theorem overlap_pairB (heven : ms2.toNat % 2 = 0) (h : md = ms1 ∨ md = ms2 ∨ md = ms2 + 1#3) :
    exec (.fmmaccH md ms2 ms1) s = .refused (.reserved .overlap) :=
  floatMul_overlap _ hr (has_of_all hall (by decide)) hf hpolicy (pairOk_of_even heven) rfl
    (disjointRegs_eq_false.2 ⟨md, List.mem_singleton_self md, by simpa [bRegs] using h⟩)

/-- Destination pairs. -/
theorem overlap_pair (heven : md.toNat % 2 = 0)
    (h : md = ms1 ∨ md = ms2 ∨ md + 1#3 = ms1 ∨ md + 1#3 = ms2) :
    ∀ i ∈ [Instr.fmmaccD md ms2 ms1, .fwmmaccS md ms2 ms1, .mmaqaH md ms2 ms1,
      .mmaqauH md ms2 ms1, .mmaqausH md ms2 ms1, .mmaqasuH md ms2 ms1],
      exec i s = .refused (.reserved .overlap) := by
  have hpair : pairOk md = true := pairOk_of_even heven
  have hdisj : disjointRegs [md, md + 1#3] [ms1, ms2] = false := by
    rw [disjointRegs_eq_false]
    simpa [or_assoc] using h
  have hint : ∀ word signs,
      s.intMul word { signs, ws := 16, wd := 64, acc := .pair, bit := 2 } md ms2 ms1 =
        .refused (.reserved .overlap) :=
    fun word signs => intMul_overlap_pair word signs 16 64 hr (has_of_all hall (by decide)) hpolicy hpair hdisj
  have hfloat : ∀ word op ws bit, bit < 10 →
      s.floatMul word { op, ws, wd := 64, pairB := false, acc := .pair, bit } md ms2 ms1 =
        .refused (.reserved .overlap) :=
    fun word op ws bit hb => floatMul_overlap word hr (has_of_all hall hb) hf hpolicy rfl hpair hdisj
  simp only [List.forall_mem_cons]
  exact ⟨hfloat _ _ _ _ (by decide), hfloat _ _ _ _ (by decide), hint _ _, hint _ _, hint _ _, hint _ _,
    List.forall_mem_nil _⟩

end Overlap

/-- Settles O23, by the kind of destination: the gates and the checks of the pairs pass, so the check of the
overlap fires. -/
theorem overlapReserved : Obligations.OverlapReserved := by
  intro s md ms2 ms1 hr hall hf hpolicy
  exact ⟨overlap_single hr hall hf hpolicy, overlap_pairB hr hall hf hpolicy, overlap_pair hr hall hf hpolicy⟩

end Sys2Proof.Machine
end

section
/-! Float matrix multiplications that execute (family 40_matmul_float.md): what an operation on a single accumulator
register and one on a register pair leave. -/

namespace Sys2Proof.Machine

/-! ### The epilogue after flags -/

/-- Accruing flags and making `FS` Dirty before the epilogue changes nothing that `Rewrites` speaks of. -/
theorem Rewrites.accrue_dirtyFS {s u : State} {regs : List MIdx} (h : Rewrites s u.finish regs)
    (g : BitVec 5) : Rewrites s (u.accrue g).dirtyFS.finish regs where
  finished := ⟨h.finished.pc, h.finished.instret, rfl, rfl⟩
  host :=
    { h.host with
      mstatus := congrArg (fun m : MStatus => { m with fs := 3#2 }) h.host.mstatus }
  sizes := h.sizes
  mem := ⟨h.mem.bytes, h.mem.stale, h.mem.draws⟩
  regs := h.regs

/-! ### Completion -/

/-- The outcome of a float matrix multiplication that writes `regs`, whose dot products are `dot`, and whose result
has the property `holds`. -/
def FloatMulRuns (s : State) (out : Host.Outcome State Fault Refusal) (regs : List MIdx)
    (dot : Nat → Nat → Word × BitVec 5) (holds : State → Prop) : Prop :=
  ∃ t, out = .next t ∧ Rewrites s t regs ∧ SatKept s t ∧ t.mstatus.fs = 3#2 ∧ holds t ∧
    ∀ k, t.fflags.getLsbD k = true ↔
      s.fflags.getLsbD k = true ∨ ∃ i j, i < s.sM ∧ j < s.sN ∧ (dot i j).2.getLsbD k = true

/-- A float matrix multiplication whose checks pass writes the group of its results and accrues the flags of its
dot products. -/
theorem floatMul_runs {s : State} (word : BitVec 32) {k : FloatMulKind} {md ms2 ms1 : MIdx}
    (hpass : ∀ c ∈ s.floatChecks k md ms2 ms1, c.1 = false) :
    FloatMulRuns s (s.floatMul word k md ms2 ms1)
      (regGroup md (s.floatResult k md ms2 ms1).length) (s.dotAt k md ms2 ms1) fun t =>
        t.cfg = s.cfg ∧ t.m = (s.setGroup md (s.floatResult k md ms2 ms1)).m := by
  have hrewrites := (rewrites_setGroup s md (s.floatResult k md ms2 ms1)).accrue_dirtyFS
    (s.dotFlags k md ms2 ms1)
  refine ⟨_, guard_of_pass s word _ hpass, hrewrites, by simp [SatKept, State.accrue], rfl,
    ⟨hrewrites.host.cfg, rfl⟩, fun n => ?_⟩
  rw [← getLsbD_dotFlags, ← Bool.or_eq_true, ← BitVec.getLsbD_or]
  simp [State.accrue]

/-- A single accumulator register. -/
theorem floatMul_single {s : State} (word : BitVec 32) {op : FloatOp} {ws wd bit : Nat} {pairB : Bool}
    {md ms2 ms1 : MIdx} (hwd : 0 < wd) {dot : Nat → Nat → Word × BitVec 5}
    (hdot : s.dotAt { op, ws, wd, pairB, acc := .single, bit } md ms2 ms1 = dot)
    (hpass : ∀ c ∈ s.floatChecks { op, ws, wd, pairB, acc := .single, bit } md ms2 ms1, c.1 = false) :
    FloatMulRuns s (s.floatMul word { op, ws, wd, pairB, acc := .single, bit } md ms2 ms1) [md] dot
      fun t => t.Holds wd md s.sM s.sN fun i j => (dot i j).1.setWidth wd := by
  subst hdot
  obtain ⟨t, hnext, hrewrites, hsat, hfs, ⟨hcfg, hm⟩, hflags⟩ := floatMul_runs word hpass
  exact ⟨t, hnext, regGroup_one md ▸ hrewrites, hsat, hfs, holds_of_accBuild_single hcfg hwd hm, hflags⟩

/-- An accumulator in a register pair, of 64-bit elements. -/
theorem floatMul_pair {s : State} (word : BitVec 32) {op : FloatOp} {ws bit : Nat} {pairB : Bool}
    {md ms2 ms1 : MIdx} {dot : Nat → Nat → Word × BitVec 5}
    (hdot : s.dotAt { op, ws, wd := 64, pairB, acc := .pair, bit } md ms2 ms1 = dot)
    (hpass : ∀ c ∈ s.floatChecks { op, ws, wd := 64, pairB, acc := .pair, bit } md ms2 ms1, c.1 = false) :
    FloatMulRuns s (s.floatMul word { op, ws, wd := 64, pairB, acc := .pair, bit } md ms2 ms1)
      [md, md + 1#3] dot fun t => t.HoldsPair md s.sM s.sN fun i j => (dot i j).1 := by
  subst hdot
  obtain ⟨t, hnext, hrewrites, hsat, hfs, ⟨hcfg, hm⟩, hflags⟩ := floatMul_runs word hpass
  have hholds := holds_of_accBuild_pair hcfg hm
  simp only [BitVec.setWidth_eq] at hholds
  exact ⟨t, hnext, regGroup_two md ▸ hrewrites, hsat, hfs, hholds, hflags⟩

/-! ### The statements -/

/-- Destinations that are no multiplicands pass the check of the overlap. -/
theorem disjointRegs_of_forall {dests sources : List MIdx} (h : ∀ d ∈ dests, ∀ r ∈ sources, d ≠ r) :
    disjointRegs dests sources = true := by
  rw [← Bool.not_eq_false, disjointRegs_eq_false]
  rintro ⟨d, hd, hmem⟩
  exact h d hd d hmem rfl

/-- Settles O41, by the outcome of a multiplication with a single accumulator register. -/
theorem floatSingleCompletes : Obligations.FloatSingleCompletes := by
  intro s md ms2 ms1 hr hf h1 h2
  have hdisj : disjointRegs [md] [ms1, ms2] = true := disjointRegs_of_forall (by simp [h1, h2])
  exact ⟨fun hb hv => floatMul_single _ (by decide) rfl (floatChecks_pass hr hf hb rfl rfl hdisj hv),
    fun hb hv => floatMul_single _ (by decide) rfl (floatChecks_pass hr hf hb rfl rfl hdisj hv)⟩

/-- Row `j` of operand `B` in a pair lies in the first register where `j` is below `ROWS`. -/
theorem bGet_pair (s : State) (w : Nat) (ms2 : MIdx) (j k : Nat) :
    s.bGet true w ms2 j k =
      if j < s.cfg.rows then s.el w ms2 j k else s.el w (ms2 + 1#3) (j - s.cfg.rows) k := by
  by_cases h : j < s.cfg.rows
  · simp [State.bGet, h]
  · simp [State.bGet, h, Nat.le_of_not_lt h]

/-- Settles O42: a single accumulator register, and operand `B` read from its pair. -/
theorem floatHalfCompletes : Obligations.FloatHalfCompletes := by
  intro s md ms2 ms1 hr hf hb heven h1 h2 h3 hv dot
  have hdisj : disjointRegs [md] [ms1, ms2, ms2 + 1#3] = true :=
    disjointRegs_of_forall (by simp [h1, h2, h3])
  have hdot : s.dotAt { op := .fmmaccH, ws := 16, wd := 16, pairB := true, acc := .single, bit := 3 }
      md ms2 ms1 = dot := by
    funext i j
    simp only [State.dotAt, bGet_pair]
    rfl
  exact floatMul_single _ (by decide) hdot (floatChecks_pass hr hf hb (pairOk_of_even heven) rfl hdisj hv)

/-- Settles O43, by the outcome of a multiplication with an accumulator pair. -/
theorem floatPairCompletes : Obligations.FloatPairCompletes := by
  intro s md ms2 ms1 hr hf heven h1 h2 h3 h4 runs
  have hdisj : disjointRegs [md, md + 1#3] [ms1, ms2] = true :=
    disjointRegs_of_forall (by simp [h1, h2, h3, h4])
  have hacc : accOk .pair md = true := pairOk_of_even heven
  refine ⟨fun hb hv => ?_, fun hb hv => ?_⟩
  · refine floatMul_pair _ ?_ (floatChecks_pass hr hf hb rfl hacc hdisj hv)
    funext i j
    simp only [State.dotAt, BitVec.setWidth_eq]
    rfl
  · refine floatMul_pair _ ?_ (floatChecks_pass hr hf hb rfl hacc hdisj hv)
    funext i j
    simp only [State.dotAt, BitVec.setWidth_eq]
    rfl

end Sys2Proof.Machine
end

section
/-! The final rounding of a number (family 40_matmul_float.md), as a choice between the two neighbouring patterns of
the format. Everything is said of the number itself, so that it holds for each mantissa and exponent that stand for
it. -/

namespace Sys2Proof.Machine

/-! ### A number between two neighbours -/

/-- Whether a number from `lo` up to `hi`, of whose neighbours the lower is odd or not, is rounded to `hi`. -/
def awayFrom (rm : BitVec 3) (neg odd : Bool) (lo hi x : ℚ) : Bool :=
  match rm.toNat with
  | 0 => decide (lo + hi < 2 * x) || decide (2 * x = lo + hi) && odd
  | 1 => false
  | 2 => neg && decide (x ≠ lo)
  | 3 => !neg && decide (x ≠ lo)
  | _ => decide (lo + hi ≤ 2 * x)

/-- A number that is the lower neighbour stays. -/
theorem awayFrom_self (rm : BitVec 3) (neg odd : Bool) {lo hi : ℚ} (h : lo < hi) :
    awayFrom rm neg odd lo hi lo = false := by
  have hlt : ¬ lo + hi < 2 * lo := by linarith
  have hne : ¬ 2 * lo = lo + hi := by linarith
  have hle : ¬ lo + hi ≤ 2 * lo := by linarith
  unfold awayFrom
  split <;> simp [hlt, hne, hle]

/-- The choice does not depend on the unit. -/
theorem awayFrom_mul (rm : BitVec 3) (neg odd : Bool) (lo hi x : ℚ) {c : ℚ} (hc : 0 < c) :
    awayFrom rm neg odd (lo * c) (hi * c) (x * c) = awayFrom rm neg odd lo hi x := by
  have hlt : lo * c + hi * c < 2 * (x * c) ↔ lo + hi < 2 * x := by
    rw [← add_mul, ← mul_assoc, mul_lt_mul_iff_left₀ hc]
  have hle : lo * c + hi * c ≤ 2 * (x * c) ↔ lo + hi ≤ 2 * x := by
    rw [← add_mul, ← mul_assoc, mul_le_mul_iff_left₀ hc]
  have heq : 2 * (x * c) = lo * c + hi * c ↔ 2 * x = lo + hi := by
    rw [← add_mul, ← mul_assoc, mul_left_inj' hc.ne']
  have hself : x * c = lo * c ↔ x = lo := mul_left_inj' hc.ne'
  unfold awayFrom
  simp only [hlt, hle, heq, ne_eq, hself]

/-- `roundsUp` is that choice between `m` and `m + 1`. -/
theorem roundsUp_eq_awayFrom (rm : BitVec 3) (neg : Bool) (m rem d : Nat) :
    roundsUp rm neg m rem d = awayFrom rm neg (m % 2 == 1) m (m + 1) (m + rem / 2 ^ d) := by
  have hpow : (0 : ℚ) < 2 ^ d := by positivity
  have hlt : (m : ℚ) + (m + 1) < 2 * (m + rem / 2 ^ d) ↔ 2 ^ d < 2 * rem := by
    rw [← Nat.cast_lt (α := ℚ)]
    push_cast
    rw [← mul_lt_mul_iff_left₀ hpow]
    field_simp
    constructor <;> intro h <;> linarith
  have hle : (m : ℚ) + (m + 1) ≤ 2 * (m + rem / 2 ^ d) ↔ 2 ^ d ≤ 2 * rem := by
    rw [← Nat.cast_le (α := ℚ)]
    push_cast
    rw [← mul_le_mul_iff_left₀ hpow]
    field_simp
    constructor <;> intro h <;> linarith
  have heq : 2 * ((m : ℚ) + rem / 2 ^ d) = m + (m + 1) ↔ 2 * rem = 2 ^ d := by
    rw [← Nat.cast_inj (R := ℚ)]
    push_cast
    rw [← mul_left_inj' hpow.ne']
    field_simp
    constructor <;> intro h <;> linarith
  have hself : (m : ℚ) + rem / 2 ^ d = m ↔ rem = 0 := by simp [hpow.ne']
  have hzero : 2 ^ d ≤ 2 * rem → rem ≠ 0 := by
    rintro h rfl
    simp at h
  unfold roundsUp awayFrom
  simp only [hlt, hle, heq, ne_eq, hself]
  generalize rm.toNat = n
  match n with
  | 0 | 2 | 3 => simp [bne, beq_eq_decide]
  | 1 => rfl
  | n + 4 => simpa using hzero

/-- A number rounded to a whole number, and whether it was none. -/
def roundWhole (rm : BitVec 3) (neg : Bool) (y : ℚ) : Nat × Bool :=
  (⌊y⌋₊ + (awayFrom rm neg (⌊y⌋₊ % 2 == 1) ⌊y⌋₊ (⌊y⌋₊ + 1) y).toNat, decide (y ≠ ⌊y⌋₊))

/-- A whole number stays. -/
theorem roundWhole_natCast (rm : BitVec 3) (neg : Bool) (m : Nat) :
    roundWhole rm neg m = (m, false) := by
  simp [roundWhole, awayFrom_self rm neg _ (lt_add_one (m : ℚ))]

/-- `roundAt` rounds the number in units of `2^q`. -/
theorem roundAt_eq (rm : BitVec 3) (neg : Bool) (mant : Nat) (exp q : Int) :
    roundAt rm neg mant exp q = roundWhole rm neg (mant * (2 : ℚ) ^ (exp - q)) := by
  unfold roundAt
  split
  case isTrue h =>
    obtain ⟨n, hn⟩ := Int.eq_ofNat_of_zero_le (sub_nonneg.2 h)
    have hy : (mant : ℚ) * 2 ^ (exp - q) = ((mant * 2 ^ n : Nat) : ℚ) := by
      rw [hn]
      push_cast
      rfl
    rw [hy, roundWhole_natCast, hn, Int.toNat_natCast]
  case isFalse h =>
    obtain ⟨d, hd⟩ := Int.eq_ofNat_of_zero_le (show 0 ≤ q - exp by omega)
    have hexp : exp - q = -(d : Int) := by omega
    have hy : (mant : ℚ) * 2 ^ (exp - q) = mant / ((2 ^ d : Nat) : ℚ) := by
      rw [hexp, zpow_neg, zpow_natCast]
      push_cast
      rfl
    have hfloor : ⌊(mant : ℚ) / ((2 ^ d : Nat) : ℚ)⌋₊ = mant / 2 ^ d := Nat.floor_div_eq_div _ _
    have hsplit : (mant : ℚ) / ((2 ^ d : Nat) : ℚ) = (mant / 2 ^ d : Nat) + (mant % 2 ^ d : Nat) / 2 ^ d := by
      have h2 : ((2 ^ d * (mant / 2 ^ d) + mant % 2 ^ d : Nat) : ℚ) = mant := by rw [Nat.div_add_mod]
      push_cast at h2 ⊢
      field_simp
      linarith
    have hrem : (mant : ℚ) / ((2 ^ d : Nat) : ℚ) = (mant / 2 ^ d : Nat) ↔ mant % 2 ^ d = 0 := by
      rw [hsplit]
      simp
    simp only [roundWhole, hy, hd, Int.toNat_natCast, hfloor, roundsUp_eq_awayFrom, ← hsplit, ne_eq, hrem]
    simp [bne, beq_eq_decide]

/-- Rounding a number that is at least zero does not pass a whole number. -/
theorem roundWhole_le (rm : BitVec 3) (neg : Bool) {y : ℚ} {n : Nat} (hy : 0 ≤ y) (h : y ≤ n) :
    (roundWhole rm neg y).1 ≤ n := by
  rcases h.lt_or_eq with hlt | rfl
  · have hfloor : ⌊y⌋₊ < n := (Nat.floor_lt hy).2 hlt
    have hbit := Bool.toNat_le (awayFrom rm neg (⌊y⌋₊ % 2 == 1) ⌊y⌋₊ (⌊y⌋₊ + 1) y)
    simp only [roundWhole]
    omega
  · rw [roundWhole_natCast]

/-! ### Patterns and the numbers they stand for -/

/-- The number of the pattern that has the mantissa `m` at the exponent field `e + 1`, or at the field 0 where `m`
has no bit above the fraction; `m` may be the power of two that follows. -/
theorem FFormat.magnitude_at (f : FFormat) {e m : Nat} (hm : m ≤ 2 ^ (f.fb + 1))
    (he : e = 0 ∨ 2 ^ f.fb ≤ m) :
    f.magnitude (e * 2 ^ f.fb + m) = m * (2 : ℚ) ^ ((e : Int) + f.emin - f.fb) := by
  have hpos : 0 < 2 ^ f.fb := by positivity
  rw [pow_succ] at hm
  rcases lt_or_ge m (2 ^ f.fb) with hlt | hge
  · obtain rfl : e = 0 := by omega
    simp [FFormat.magnitude, hlt]
  · obtain ⟨r, rfl⟩ := Nat.exists_eq_add_of_le hge
    have hk : e * 2 ^ f.fb + (2 ^ f.fb + r) = 2 ^ f.fb * (e + 1) + r := by ring
    have hnot : ¬ 2 ^ f.fb * (e + 1) + r < 2 ^ f.fb := by nlinarith
    rw [hk, FFormat.magnitude, if_neg hnot, Nat.mul_add_mod, Nat.mul_add_div hpos]
    rcases lt_or_eq_of_le (show r ≤ 2 ^ f.fb by omega) with hr | rfl
    · rw [Nat.mod_eq_of_lt hr, Nat.div_eq_of_lt hr]
      congr 2
      push_cast
      ring
    · rw [Nat.mod_self, Nat.div_self hpos]
      have hexp : (((e + 1 + 1 : Nat) : Int) - 1 + f.emin - f.fb) = (e : Int) + f.emin - f.fb + 1 := by
        push_cast
        ring
      rw [hexp, zpow_add_one₀ (by norm_num)]
      push_cast
      ring

/-- Every pattern has such a mantissa and exponent. -/
theorem FFormat.exists_mantissa (f : FFormat) (k : Nat) :
    ∃ e m, k = e * 2 ^ f.fb + m ∧ m < 2 ^ (f.fb + 1) ∧ (e = 0 ∨ 2 ^ f.fb ≤ m) := by
  have hpos : 0 < 2 ^ f.fb := by positivity
  have hmod := Nat.mod_lt k hpos
  have hdiv := Nat.div_add_mod' k (2 ^ f.fb)
  rw [pow_succ]
  rcases Nat.eq_zero_or_pos (k / 2 ^ f.fb) with h0 | hpos'
  · rw [h0] at hdiv
    exact ⟨0, k, by simp, by omega, .inl rfl⟩
  · obtain ⟨e, he⟩ := Nat.exists_eq_add_of_le' hpos'
    rw [he] at hdiv
    exact ⟨e, 2 ^ f.fb + k % 2 ^ f.fb, by linarith, by omega, .inr (by omega)⟩

/-- A larger pattern stands for a larger number. -/
theorem FFormat.magnitude_strictMono (f : FFormat) : StrictMono f.magnitude := by
  refine strictMono_nat_of_lt_succ fun k => ?_
  obtain ⟨e, m, rfl, hm, he⟩ := f.exists_mantissa k
  rw [add_assoc, f.magnitude_at hm.le he, f.magnitude_at hm (he.imp_right (by omega))]
  have hunit : (0 : ℚ) < 2 ^ ((e : Int) + f.emin - f.fb) := by positivity
  push_cast
  linarith

/-! ### The rounding -/

/-- A number lies between the powers of two of its leading bit. -/
theorem number_bounds {mant : Nat} (h : 0 < mant) (exp : Int) :
    (2 : ℚ) ^ ((mant.log2 : Int) + exp) ≤ mant * 2 ^ exp ∧
      (mant : ℚ) * 2 ^ exp < 2 ^ ((mant.log2 : Int) + exp + 1) := by
  have hunit : (0 : ℚ) < 2 ^ exp := by positivity
  have hlow : ((2 ^ mant.log2 : Nat) : ℚ) ≤ mant := Nat.cast_le.2 (Nat.log2_self_le h.ne')
  have hhigh : (mant : ℚ) < ((2 ^ (mant.log2 + 1) : Nat) : ℚ) := Nat.cast_lt.2 Nat.lt_log2_self
  rw [add_right_comm, zpow_add₀ two_ne_zero, zpow_add₀ two_ne_zero (_ + 1)]
  push_cast at hlow hhigh
  exact ⟨mul_le_mul_of_nonneg_right hlow hunit.le, by exact_mod_cast mul_lt_mul_of_pos_right hhigh hunit⟩

/-- The rounding depends on the number alone. -/
theorem FFormat.round_congr (f : FFormat) (rm : BitVec 3) (neg : Bool) {mant mant' : Nat}
    {exp exp' : Int} (lost : Bool) (hm : 0 < mant) (hm' : 0 < mant')
    (h : (mant : ℚ) * 2 ^ exp = mant' * 2 ^ exp') :
    f.round rm neg mant exp lost = f.round rm neg mant' exp' lost := by
  have htop : (mant.log2 : Int) + exp = mant'.log2 + exp' := by
    obtain ⟨hlow, hhigh⟩ := number_bounds hm exp
    obtain ⟨hlow', hhigh'⟩ := number_bounds hm' exp'
    have h1 := (zpow_lt_zpow_iff_right₀ (one_lt_two (α := ℚ))).1 (hlow.trans_lt (h ▸ hhigh'))
    have h2 := (zpow_lt_zpow_iff_right₀ (one_lt_two (α := ℚ))).1 (hlow'.trans_lt (h ▸ hhigh))
    omega
  have hround : ∀ q, roundAt rm neg mant exp q = roundAt rm neg mant' exp' q := fun q => by
    rw [roundAt_eq, roundAt_eq, zpow_sub₀ two_ne_zero, zpow_sub₀ two_ne_zero, ← mul_div_assoc, h,
      mul_div_assoc]
  simp only [FFormat.round, htop, hround]

/-- What the rounding to the pattern `bits` gives. -/
def FFormat.rounded (f : FFormat) (rm : BitVec 3) (neg : Bool) (bits : Nat) (tiny inexact : Bool) :
    Nat × BitVec 5 :=
  if f.infBits ≤ bits then
    (f.signBits neg + (if overflowsToInf rm neg then f.infBits else f.infBits - 1), flagOF ||| flagNX)
  else
    (f.signBits neg + bits,
      (if tiny && inexact then flagUF else 0) ||| (if inexact then flagNX else 0))

/-- The pattern that a number from pattern `k` up to the next is rounded to. -/
def FFormat.nearby (f : FFormat) (rm : BitVec 3) (neg : Bool) (k : Nat) (x : ℚ) : Nat :=
  k + (awayFrom rm neg (k % 2 == 1) (f.magnitude k) (f.magnitude (k + 1)) x).toNat

/-- The mantissa of a number, in units of the last place that its leading bit `2^top` leaves in the format, is that
of a pattern, and the next one too. -/
theorem FFormat.magnitude_floor (f : FFormat) {x : ℚ} {top q : Int} {e : Nat} (hlow : 2 ^ top ≤ x)
    (hhigh : x < 2 ^ (top + 1)) (hq : q = max (top - f.fb) (f.emin - f.fb))
    (he : q + f.fb + f.bias - 1 = e) :
    f.magnitude (e * 2 ^ f.fb + ⌊x / 2 ^ q⌋₊) = ⌊x / 2 ^ q⌋₊ * 2 ^ q ∧
      f.magnitude (e * 2 ^ f.fb + ⌊x / 2 ^ q⌋₊ + 1) = (⌊x / 2 ^ q⌋₊ + 1) * 2 ^ q := by
  have hunit : (0 : ℚ) < 2 ^ q := by positivity
  have hxpos : 0 < x := (zpow_pos two_pos top).trans_le hlow
  have hm : ⌊x / 2 ^ q⌋₊ < 2 ^ (f.fb + 1) := by
    rw [Nat.floor_lt (by positivity), div_lt_iff₀ hunit]
    push_cast
    rw [← zpow_natCast, ← zpow_add₀ two_ne_zero]
    exact hhigh.trans_le (zpow_le_zpow_right₀ one_le_two (by push_cast; omega))
  have hnormal : e = 0 ∨ 2 ^ f.fb ≤ ⌊x / 2 ^ q⌋₊ := by
    rcases max_choice (top - (f.fb : Int)) (f.emin - f.fb) with h | h
    · right
      rw [Nat.le_floor_iff (by positivity), le_div_iff₀ hunit]
      push_cast
      rw [← zpow_natCast, ← zpow_add₀ two_ne_zero, show (f.fb : Int) + q = top by omega]
      exact hlow
    · left
      simp only [FFormat.emin] at h hq
      omega
  have hexp : (e : Int) + f.emin - f.fb = q := by
    simp only [FFormat.emin]
    omega
  refine ⟨by rw [f.magnitude_at hm.le hnormal, hexp], ?_⟩
  rw [add_assoc, f.magnitude_at hm (hnormal.imp_right (by omega)), hexp]
  push_cast
  rfl

/-- A number more than half a unit below the least normal one stays below it at the precision of the format. -/
theorem FFormat.roundAt_below_normal (f : FFormat) (rm : BitVec 3) (neg : Bool) {mant : Nat}
    {exp top : Int} {x : ℚ} (htop : top + 1 = f.emin) (hx : x = mant * 2 ^ exp)
    (h : x ≤ 2 ^ f.emin - 2 ^ (f.emin - f.fb - 1)) :
    (roundAt rm neg mant exp (top - f.fb)).1 < 2 ^ (f.fb + 1) := by
  have hunit : (0 : ℚ) < 2 ^ (top - f.fb : Int) := by positivity
  have hscale : (mant : ℚ) * 2 ^ (exp - (top - f.fb)) = x / 2 ^ (top - f.fb : Int) := by
    rw [hx, zpow_sub₀ two_ne_zero, mul_div_assoc]
  have hbound : x / 2 ^ (top - f.fb : Int) ≤ ((2 ^ (f.fb + 1) - 1 : Nat) : ℚ) := by
    rw [div_le_iff₀ hunit, Nat.cast_sub Nat.one_le_two_pow, sub_mul]
    push_cast
    rw [← zpow_natCast, ← zpow_add₀ two_ne_zero, one_mul,
      show ((f.fb + 1 : Nat) : Int) + (top - f.fb) = f.emin by push_cast; omega,
      show top - (f.fb : Int) = f.emin - f.fb - 1 by omega]
    exact h
  have hround := roundWhole_le rm neg (by rw [hx]; positivity) hbound
  have hpow : 0 < 2 ^ (f.fb + 1) := by positivity
  rw [roundAt_eq, hscale]
  omega

/-- The final rounding chooses between the patterns on both sides of the number. -/
theorem FFormat.round_eq (f : FFormat) (hfb : 1 ≤ f.fb) (rm : BitVec 3) (neg : Bool) {mant : Nat}
    (hm : 0 < mant) (exp : Int) (lost : Bool) {x : ℚ} (hx : x = mant * 2 ^ exp) :
    ∃ k tiny, f.magnitude k ≤ x ∧ x < f.magnitude (k + 1) ∧
      f.round rm neg mant exp lost =
        f.rounded rm neg (f.nearby rm neg k x) tiny (decide (x ≠ f.magnitude k) || lost) ∧
      (tiny = true → x < 2 ^ f.emin) ∧
      (x ≤ 2 ^ f.emin - 2 ^ (f.emin - f.fb - 1) → tiny = true) := by
  obtain ⟨hlow, hhigh⟩ := number_bounds hm exp
  rw [← hx] at hlow hhigh
  set top : Int := (mant.log2 : Int) + exp with htop
  set q := max (top - f.fb) (f.emin - f.fb) with hq
  obtain ⟨e, he⟩ := Int.eq_ofNat_of_zero_le (show 0 ≤ q + f.fb + f.bias - 1 by
    simp only [FFormat.emin] at hq; omega)
  have hscale : ∀ p : Int, (mant : ℚ) * 2 ^ (exp - p) = x / 2 ^ p := fun p => by
    rw [hx, zpow_sub₀ two_ne_zero, mul_div_assoc]
  have hunit : ∀ p : Int, (0 : ℚ) < 2 ^ p := fun p => by positivity
  have hxpos : 0 < x := (hunit _).trans_le hlow
  obtain ⟨hmag, hmag'⟩ := f.magnitude_floor hlow hhigh hq he
  set m := ⌊x / 2 ^ q⌋₊ with hmdef
  have hxy : x / 2 ^ q * 2 ^ q = x := div_mul_cancel₀ _ (hunit q).ne'
  have hfloor : (m : ℚ) ≤ x / 2 ^ q := Nat.floor_le (by positivity)
  have hparity : (e * 2 ^ f.fb + m) % 2 = m % 2 := by
    obtain ⟨n, hn⟩ := Nat.exists_eq_add_of_le' hfb
    rw [hn, pow_succ, ← mul_assoc, Nat.mul_add_mod_self_right]
  have haway : awayFrom rm neg (m % 2 == 1) m (m + 1) (x / 2 ^ q) =
      awayFrom rm neg ((e * 2 ^ f.fb + m) % 2 == 1) (f.magnitude (e * 2 ^ f.fb + m))
        (f.magnitude (e * 2 ^ f.fb + m + 1)) x := by
    rw [hmag, hmag', hparity, ← awayFrom_mul rm neg _ m (m + 1) (x / 2 ^ q) (hunit q), hxy]
  have hexact : x / 2 ^ q = m ↔ x = f.magnitude (e * 2 ^ f.fb + m) := by
    rw [hmag, div_eq_iff (hunit q).ne']
  refine ⟨e * 2 ^ f.fb + m, decide (top + 1 < f.emin) || (decide (top + 1 = f.emin) &&
    decide ((roundAt rm neg mant exp (top - f.fb)).1 < 2 ^ (f.fb + 1))), ?_, ?_, ?_, ?_, ?_⟩
  · rwa [hmag, ← le_div_iff₀ (hunit q)]
  · rw [hmag', ← div_lt_iff₀ (hunit q)]
    exact Nat.lt_floor_add_one _
  · simp only [FFormat.round, FFormat.rounded, FFormat.nearby, ← htop, ← hq, he, Int.toNat_natCast, roundAt_eq,
      hscale, roundWhole, ← hmdef, haway, ne_eq, hexact,
      ← Nat.add_assoc]
  · intro htiny
    refine hhigh.trans_le (zpow_le_zpow_right₀ one_le_two ?_)
    simp only [Bool.or_eq_true, Bool.and_eq_true, decide_eq_true_eq] at htiny
    omega
  · intro hsmall
    have hlt : top < f.emin := by
      have hgap := hunit (f.emin - f.fb - 1)
      exact (zpow_lt_zpow_iff_right₀ (one_lt_two (α := ℚ))).1 (by linarith)
    rcases lt_or_eq_of_le (show top + 1 ≤ f.emin by omega) with h | h
    · simp [h]
    · simp [h, f.roundAt_below_normal rm neg h hx hsmall]

end Sys2Proof.Machine
end

section
/-! The five rounding modes and the flags of the final rounding (family 40_matmul_float.md). -/

namespace Sys2Proof.Machine

/-! ### Formats -/

/-- The bounds on the widths of a format that the instructions use. -/
structure FFormat.Usual (f : FFormat) : Prop where
  eb : 2 ≤ f.eb
  fb : 1 ≤ f.fb
  bits : f.eb + f.fb < 64

/-- Every accumulator has such a format. -/
theorem floatFormats_usual (op : FloatOp) (bf : Bool) : (floatFormats op bf).2.Usual := by
  cases op <;> cases bf <;> exact ⟨by decide, by decide, by decide⟩

/-- Patterns up to infinity and those of the other fractions of its exponent are all that have no sign. -/
theorem FFormat.infBits_add (f : FFormat) : f.infBits + 2 ^ f.fb = 2 ^ (f.eb + f.fb) := by
  rw [FFormat.infBits, ← Nat.succ_mul, Nat.succ_eq_add_one, Nat.sub_add_cancel Nat.one_le_two_pow, pow_add]

/-- The least normal number lies below infinity. -/
theorem FFormat.Usual.lt_infBits {f : FFormat} (h : f.Usual) : 2 ^ f.fb < f.infBits := by
  have hpow : 2 ^ (2 + f.fb) ≤ 2 ^ (f.eb + f.fb) :=
    Nat.pow_le_pow_right two_pos (Nat.add_le_add_right h.eb _)
  have hpos : 0 < 2 ^ f.fb := by positivity
  have hadd := f.infBits_add
  rw [pow_add 2 2] at hpow
  omega

/-- The pattern of infinity is not zero. -/
theorem FFormat.Usual.infBits_pos {f : FFormat} (h : f.Usual) : 0 < f.infBits :=
  Nat.zero_lt_of_lt h.lt_infBits

/-- The pattern of infinity is even. -/
theorem FFormat.Usual.infBits_even {f : FFormat} (h : f.Usual) : f.infBits % 2 = 0 := by
  obtain ⟨n, hn⟩ := Nat.exists_eq_add_of_le' h.fb
  rw [FFormat.infBits, hn, pow_succ, ← mul_assoc, Nat.mul_mod_left]

/-- The least normal number. -/
theorem FFormat.magnitude_normal (f : FFormat) : f.magnitude (2 ^ f.fb) = 2 ^ f.emin := by
  have h := f.magnitude_at (e := 0) (Nat.pow_le_pow_right two_pos (Nat.le_succ f.fb)) (.inl rfl)
  rw [zero_mul, zero_add] at h
  rw [h]
  push_cast
  rw [← zpow_natCast, ← zpow_add₀ two_ne_zero]
  congr 1
  ring

/-! ### Modes -/

/-- The modes that round toward zero. -/
def TowardZero (rm : BitVec 3) (neg : Bool) : Prop :=
  rm = 1#3 ∨ (rm = 2#3 ∧ neg = false) ∨ (rm = 3#3 ∧ neg = true)

/-- The modes that round away from zero. -/
def AwayFromZero (rm : BitVec 3) (neg : Bool) : Prop :=
  (rm = 2#3 ∧ neg = true) ∨ (rm = 3#3 ∧ neg = false)

/-- A valid mode is one of three kinds. -/
theorem mode_cases {rm : BitVec 3} (neg : Bool) (h : rm.toNat < 5) :
    TowardZero rm neg ∨ AwayFromZero rm neg ∨ rm = 0#3 ∨ rm = 4#3 := by
  unfold TowardZero AwayFromZero
  revert rm neg
  decide

/-- Toward zero, no overflow gives infinity and no number goes up. -/
theorem TowardZero.spec {rm : BitVec 3} {neg : Bool} (h : TowardZero rm neg) :
    overflowsToInf rm neg = false ∧ ∀ odd lo hi x, awayFrom rm neg odd lo hi x = false := by
  rcases h with rfl | ⟨rfl, rfl⟩ | ⟨rfl, rfl⟩ <;> exact ⟨rfl, fun _ _ _ _ => rfl⟩

/-- Away from zero, every overflow gives infinity and every number between two patterns goes up. -/
theorem AwayFromZero.spec {rm : BitVec 3} {neg : Bool} (h : AwayFromZero rm neg) :
    overflowsToInf rm neg = true ∧ ∀ odd lo hi x, awayFrom rm neg odd lo hi x = decide (x ≠ lo) := by
  rcases h with ⟨rfl, rfl⟩ | ⟨rfl, rfl⟩ <;> exact ⟨rfl, fun _ _ _ _ => Bool.true_and _⟩

/-- To nearest, every overflow gives infinity. -/
theorem overflowsToInf_nearest {rm : BitVec 3} (neg : Bool) (h : rm = 0#3 ∨ rm = 4#3) :
    overflowsToInf rm neg = true := by
  rcases h with rfl | rfl <;> rfl

/-- To nearest, a number goes down only where the lower neighbour is no further, in a tie only with an even one. -/
theorem nearest_down {rm : BitVec 3} {neg odd : Bool} {lo hi x : ℚ} (hrm : rm = 0#3 ∨ rm = 4#3)
    (h : awayFrom rm neg odd lo hi x = false) :
    2 * x ≤ lo + hi ∧ (2 * x = lo + hi → rm = 0#3 ∧ odd = false) := by
  rcases hrm with rfl | rfl
  · obtain ⟨hle, htie⟩ : 2 * x ≤ lo + hi ∧ (2 * x = lo + hi → odd = false) := by
      simpa [awayFrom] using h
    exact ⟨hle, fun heq => ⟨rfl, htie heq⟩⟩
  · have hlt : 2 * x < lo + hi := by simpa [awayFrom] using h
    exact ⟨hlt.le, fun heq => absurd heq hlt.ne⟩

/-- To nearest, a number goes up only where the higher neighbour is no further, in a tie to even only from an odd
one. -/
theorem nearest_up {rm : BitVec 3} {neg odd : Bool} {lo hi x : ℚ} (hrm : rm = 0#3 ∨ rm = 4#3)
    (h : awayFrom rm neg odd lo hi x = true) :
    lo + hi ≤ 2 * x ∧ (2 * x = lo + hi → rm = 0#3 → odd = true) := by
  rcases hrm with rfl | rfl
  · have hcases : lo + hi < 2 * x ∨ 2 * x = lo + hi ∧ odd = true := by simpa [awayFrom] using h
    rcases hcases with hlt | ⟨heq, hodd⟩
    · exact ⟨hlt.le, fun heq => absurd heq hlt.ne'⟩
    · exact ⟨heq.ge, fun _ _ => hodd⟩
  · have hle : lo + hi ≤ 2 * x := by simpa [awayFrom] using h
    exact ⟨hle, fun _ hrm => absurd hrm (by decide)⟩

/-! ### The pattern of the result -/

/-- The pattern, without its sign, that stands for the rounded pattern `bits`. -/
def FFormat.stored (f : FFormat) (rm : BitVec 3) (neg : Bool) (bits : Nat) : Nat :=
  if f.infBits ≤ bits then (if overflowsToInf rm neg then f.infBits else f.infBits - 1) else bits

/-- The result of a rounding. -/
theorem FFormat.rounded_fst (f : FFormat) (rm : BitVec 3) (neg : Bool) (bits : Nat) (tiny inexact : Bool) :
    (f.rounded rm neg bits tiny inexact).1 = f.signBits neg + f.stored rm neg bits := by
  unfold FFormat.rounded FFormat.stored
  split <;> rfl

/-- The flags of a rounding: OF, NX, UF, and never NV or DZ. -/
theorem FFormat.rounded_flags (f : FFormat) (rm : BitVec 3) (neg : Bool) (bits : Nat) (tiny inexact : Bool) :
    ((f.rounded rm neg bits tiny inexact).2.getLsbD 2 = true ↔ f.infBits ≤ bits) ∧
    ((f.rounded rm neg bits tiny inexact).2.getLsbD 0 = true ↔ f.infBits ≤ bits ∨ inexact = true) ∧
    ((f.rounded rm neg bits tiny inexact).2.getLsbD 1 = true ↔
      bits < f.infBits ∧ tiny = true ∧ inexact = true) ∧
    (f.rounded rm neg bits tiny inexact).2.getLsbD 4 = false ∧
    (f.rounded rm neg bits tiny inexact).2.getLsbD 3 = false := by
  by_cases h : f.infBits ≤ bits
  · simp [FFormat.rounded, h, flagOF, flagNX, Nat.not_lt.2 h]
  · cases tiny <;> cases inexact <;> simp [FFormat.rounded, h, flagUF, flagNX, Nat.not_le.1 h]

/-- A stored pattern is at most infinity. -/
theorem FFormat.stored_le (f : FFormat) (rm : BitVec 3) (neg : Bool) (bits : Nat) :
    f.stored rm neg bits ≤ f.infBits := by
  unfold FFormat.stored
  split
  · split <;> omega
  · omega

/-- A rounded pattern is a neighbour of the number. -/
theorem FFormat.nearby_cases (f : FFormat) (rm : BitVec 3) (neg : Bool) (k : Nat) (x : ℚ) :
    (f.nearby rm neg k x = k ∧
      awayFrom rm neg (k % 2 == 1) (f.magnitude k) (f.magnitude (k + 1)) x = false) ∨
    (f.nearby rm neg k x = k + 1 ∧ x ≠ f.magnitude k ∧
      awayFrom rm neg (k % 2 == 1) (f.magnitude k) (f.magnitude (k + 1)) x = true) := by
  cases h : awayFrom rm neg (k % 2 == 1) (f.magnitude k) (f.magnitude (k + 1)) x with
  | false => exact .inl ⟨by simp [FFormat.nearby, h], rfl⟩
  | true =>
    refine .inr ⟨by simp [FFormat.nearby, h], ?_, rfl⟩
    rintro rfl
    rw [awayFrom_self _ _ _ (f.magnitude_strictMono (Nat.lt_succ_self k))] at h
    exact absurd h (by decide)

section Neighbours

variable {f : FFormat} {k : Nat} {x : ℚ} (hf : f.Usual) (hlo : f.magnitude k ≤ x)
  (hhi : x < f.magnitude (k + 1))

include hlo hhi

/-- The lower neighbour of a number is the last pattern that is not above it. -/
theorem magnitude_le_iff (j : Nat) : f.magnitude j ≤ x ↔ j ≤ k := by
  refine ⟨fun h => ?_, fun h => (f.magnitude_strictMono.monotone h).trans hlo⟩
  exact Nat.lt_succ_iff.1 (f.magnitude_strictMono.lt_iff_lt.1 (h.trans_lt hhi))

include hf

/-- Toward zero the result is the last finite pattern that is not above the number. -/
theorem stored_towardZero {rm : BitVec 3} {neg : Bool} (h : TowardZero rm neg) :
    let j := f.stored rm neg (f.nearby rm neg k x)
    j < f.infBits ∧ f.magnitude j ≤ x ∧ (x < f.magnitude (j + 1) ∨ j + 1 = f.infBits) := by
  have hpos := hf.infBits_pos
  have hnearby : f.nearby rm neg k x = k := by simp [FFormat.nearby, h.spec.2]
  simp only [FFormat.stored, hnearby, h.spec.1, Bool.false_eq_true, if_false,
    magnitude_le_iff hlo hhi]
  split
  · exact ⟨by omega, by omega, .inr (by omega)⟩
  · exact ⟨by omega, le_rfl, .inl hhi⟩

omit hf

/-- Away from zero the result is the first pattern that is not below the number, or infinity. -/
theorem stored_awayFromZero {rm : BitVec 3} {neg : Bool} (h : AwayFromZero rm neg) :
    let j := f.stored rm neg (f.nearby rm neg k x)
    (x ≤ f.magnitude j ∨ j = f.infBits) ∧ (0 < j → f.magnitude (j - 1) < x) := by
  have hbelow : ∀ j, 0 < j → j ≤ f.nearby rm neg k x → f.magnitude (j - 1) < x := fun j hj hle => by
    rcases f.nearby_cases rm neg k x with ⟨hk, -⟩ | ⟨hk, hne, -⟩
    · exact (f.magnitude_strictMono (by omega)).trans_le hlo
    · exact (f.magnitude_strictMono.monotone (by omega)).trans_lt (hlo.lt_of_ne hne.symm)
  have habove : x ≤ f.magnitude (f.nearby rm neg k x) := by
    rcases f.nearby_cases rm neg k x with ⟨hk, haway⟩ | ⟨hk, -⟩
    · rw [h.spec.2] at haway
      rw [hk, not_ne_iff.1 (of_decide_eq_false haway)]
    · exact hk ▸ hhi.le
  simp only [FFormat.stored, h.spec.1, if_true]
  split
  case isTrue hover => exact ⟨.inr rfl, fun hj => hbelow _ hj hover⟩
  case isFalse => exact ⟨.inl habove, fun hj => hbelow _ hj le_rfl⟩

/-- To nearest, no pattern is nearer to the number than the rounded one, and one as near is on the side that the
mode does not take. -/
theorem nearby_nearest {rm : BitVec 3} (neg : Bool) (hrm : rm = 0#3 ∨ rm = 4#3) (j : Nat) :
    let n := f.nearby rm neg k x
    |x - f.magnitude n| ≤ |x - f.magnitude j| ∧
      (|x - f.magnitude n| = |x - f.magnitude j| → j ≠ n →
        (rm = 0#3 → n % 2 = 0) ∧ (rm = 4#3 → j < n)) := by
  have hmono := f.magnitude_strictMono
  have hlow : |x - f.magnitude k| = x - f.magnitude k := abs_of_nonneg (by linarith)
  have hhigh : |x - f.magnitude (k + 1)| = f.magnitude (k + 1) - x := by
    rw [abs_of_nonpos (by linarith), neg_sub]
  have hbelow : j ≤ k → f.magnitude j ≤ f.magnitude k ∧ |x - f.magnitude j| = x - f.magnitude j :=
    fun hj => ⟨hmono.monotone hj, abs_of_nonneg (by linarith [hmono.monotone hj])⟩
  have habove : k < j →
      f.magnitude (k + 1) ≤ f.magnitude j ∧ |x - f.magnitude j| = f.magnitude j - x :=
    fun hj => ⟨hmono.monotone hj, by rw [abs_of_nonpos (by linarith [hmono.monotone hj]), neg_sub]⟩
  rcases f.nearby_cases rm neg k x with ⟨hk, haway⟩ | ⟨hk, -, haway⟩
  · obtain ⟨hle, htie⟩ := nearest_down hrm haway
    simp only [hk, hlow]
    rcases Nat.lt_or_ge k j with hj | hj
    · obtain ⟨hm, hd⟩ := habove hj
      refine ⟨by linarith, fun heq _ => ?_⟩
      obtain ⟨rfl, hodd⟩ := htie (by linarith)
      exact ⟨fun _ => by simpa using hodd, fun h => absurd h (by decide)⟩
    · obtain ⟨hm, hd⟩ := hbelow hj
      exact ⟨by linarith, fun heq hne => absurd (hmono.injective (by linarith)) hne⟩
  · obtain ⟨hle, htie⟩ := nearest_up hrm haway
    simp only [hk, hhigh]
    rcases Nat.lt_or_ge k j with hj | hj
    · obtain ⟨hm, hd⟩ := habove hj
      exact ⟨by linarith, fun heq hne => absurd (hmono.injective (by linarith)) hne⟩
    · obtain ⟨hm, hd⟩ := hbelow hj
      refine ⟨by linarith, fun heq _ => ⟨fun h0 => ?_, fun _ => by omega⟩⟩
      have hodd : k % 2 = 1 := by simpa using htie (by linarith) h0
      omega

/-- To nearest, the same of the stored pattern among those up to infinity. -/
theorem stored_nearest {rm : BitVec 3} (neg : Bool) (hrm : rm = 0#3 ∨ rm = 4#3) :
    let n := f.stored rm neg (f.nearby rm neg k x)
    ∀ j ≤ f.infBits, |x - f.magnitude n| ≤ |x - f.magnitude j| ∧
      (|x - f.magnitude n| = |x - f.magnitude j| → j ≠ n →
        (rm = 0#3 → n % 2 = 0) ∧ (rm = 4#3 → j < n)) := by
  intro n j hj
  have hn : n = f.nearby rm neg k x ∨ n = f.infBits ∧ f.infBits ≤ k := by
    simp only [n, FFormat.stored, overflowsToInf_nearest neg hrm, if_true]
    split
    · rcases f.nearby_cases rm neg k x with ⟨hk, -⟩ | ⟨hk, -⟩ <;> omega
    · exact .inl rfl
  rcases hn with hn | ⟨hn, hk⟩
  · rw [hn]
    exact nearby_nearest hlo hhi neg hrm j
  · have hmono := f.magnitude_strictMono
    have hm : f.magnitude j ≤ f.magnitude n := hmono.monotone (hn ▸ hj)
    have hx : f.magnitude n ≤ x := (magnitude_le_iff hlo hhi n).2 (hn ▸ hk)
    rw [abs_of_nonneg (sub_nonneg.2 hx), abs_of_nonneg (sub_nonneg.2 (hm.trans hx))]
    exact ⟨by linarith, fun heq hne => absurd (hmono.injective (by linarith)) hne⟩

include hf

/-- The rounded pattern is infinity or more exactly where the result is, or where the number reaches the power of two
after the largest finite one. -/
theorem infBits_le_nearby_iff {rm : BitVec 3} {neg : Bool} (hrm : rm.toNat < 5) :
    f.infBits ≤ f.nearby rm neg k x ↔
      f.stored rm neg (f.nearby rm neg k x) = f.infBits ∨ f.magnitude f.infBits ≤ x := by
  have hpos := hf.infBits_pos
  rw [magnitude_le_iff hlo hhi]
  constructor
  · intro hover
    rcases mode_cases neg hrm with h | h | h
    · right
      simpa [FFormat.nearby, h.spec.2] using hover
    · left
      simp [FFormat.stored, hover, h.spec.1]
    · left
      simp [FFormat.stored, hover, overflowsToInf_nearest neg h]
  · rintro (h | h)
    · by_contra hover
      rw [FFormat.stored, if_neg hover] at h
      omega
    · exact h.trans (Nat.le_add_right ..)

omit hf hlo

/-- A result that has not overflowed is the number exactly where the number is a pattern's. -/
theorem eq_magnitude_nearby_iff (rm : BitVec 3) (neg : Bool) :
    x = f.magnitude (f.nearby rm neg k x) ↔ x = f.magnitude k := by
  rcases f.nearby_cases rm neg k x with ⟨hk, -⟩ | ⟨hk, hne, -⟩
  · rw [hk]
  · rw [hk]
    exact ⟨fun h => absurd h hhi.ne, fun h => absurd h hne⟩

/-- The result is not the number, or has overflowed, exactly where the number is no pattern's or overflows. -/
theorem inexact_iff (rm : BitVec 3) (neg : Bool) :
    f.infBits ≤ f.nearby rm neg k x ∨ x ≠ f.magnitude k ↔
      x ≠ f.magnitude (f.stored rm neg (f.nearby rm neg k x)) ∨ f.infBits ≤ f.nearby rm neg k x := by
  by_cases hover : f.infBits ≤ f.nearby rm neg k x
  · simp [hover]
  · rw [FFormat.stored, if_neg hover, ne_eq x (f.magnitude (f.nearby ..)), eq_magnitude_nearby_iff hhi]
    simp [hover]

omit hhi
include hf hlo

/-- A number below the normal ones does not overflow. -/
theorem nearby_lt_infBits (rm : BitVec 3) (neg : Bool) (hx : x < 2 ^ f.emin) :
    f.nearby rm neg k x < f.infBits := by
  have hnormal := hf.lt_infBits
  have hk : k < 2 ^ f.fb := by
    rw [← f.magnitude_normal] at hx
    exact f.magnitude_strictMono.lt_iff_lt.1 (hlo.trans_lt hx)
  rcases f.nearby_cases rm neg k x with ⟨h, -⟩ | ⟨h, -⟩ <;> omega

end Neighbours

/-- Settles O46: the rounding chooses between the neighbours of the number, by the kind of mode, and the flags say
how. -/
theorem finalRounding : Obligations.FinalRounding := by
  intro op bf rm neg mant exp hrm hm f x r overflow inexact underflow down up
  have hf : f.Usual := floatFormats_usual op bf
  obtain ⟨k, tiny, hlo, hhi, hround, htiny, hsmall⟩ :=
    f.round_eq hf.fb rm neg hm exp false (x := x) rfl
  obtain ⟨hOF, hNX, hUF, hNV, hDZ⟩ := f.rounded_flags rm neg (f.nearby rm neg k x) tiny
    (decide (x ≠ f.magnitude k) || false)
  rw [← hround] at hOF hNX hUF hNV hDZ
  simp only [Bool.or_false, decide_eq_true_eq] at hNX hUF
  refine ⟨f.stored rm neg (f.nearby rm neg k x), f.stored_le _ _ _, ?_,
    stored_towardZero hf hlo hhi, stored_awayFromZero hlo hhi, stored_nearest hlo hhi neg,
    hOF.trans (infBits_le_nearby_iff hf hlo hhi hrm), ?_, ?_, ?_, hNV, hDZ⟩
  · exact (congrArg Prod.fst hround).trans (f.rounded_fst ..)
  · exact hNX.trans ((inexact_iff hhi rm neg).trans (or_congr_right hOF.symm))
  · intro hunder
    obtain ⟨-, ht, hne⟩ := hUF.1 hunder
    exact ⟨hNX.2 (.inr hne), htiny ht⟩
  · intro hinexact hx
    have hgap : (0 : ℚ) < 2 ^ (f.emin - f.fb - 1) := by positivity
    have hlt := nearby_lt_infBits hf hlo rm neg (by linarith)
    exact hUF.2 ⟨hlt, hsmall hx, (hNX.1 hinexact).resolve_left (Nat.not_le.2 hlt)⟩

end Sys2Proof.Machine
end

section
/-! The dot product (family 40_matmul_float.md): its terms, what makes it NaN or infinite, and the bounds of its
pattern and flags. -/

namespace Sys2Proof.Machine

/-! ### Patterns -/

/-- A pattern with its sign fits a word. -/
theorem FFormat.Usual.pattern_lt {f : FFormat} (hf : f.Usual) (neg : Bool) {k : Nat}
    (hk : k < 2 ^ (f.eb + f.fb)) : f.signBits neg + k < 2 ^ 64 := by
  have hpow : 2 ^ (f.eb + f.fb + 1) ≤ 2 ^ 64 := Nat.pow_le_pow_right two_pos hf.bits
  have hsign : f.signBits neg ≤ 2 ^ (f.eb + f.fb) := by cases neg <;> simp [FFormat.signBits]
  rw [pow_succ] at hpow
  omega

/-- Infinity is a pattern without a sign. -/
theorem FFormat.infBits_lt (f : FFormat) : f.infBits < 2 ^ (f.eb + f.fb) := by
  have hadd := f.infBits_add
  have hpos : 0 < 2 ^ f.fb := by positivity
  omega

/-- The canonical NaN is a pattern without a sign. -/
theorem FFormat.Usual.nanBits_lt {f : FFormat} (hf : f.Usual) : f.nanBits < 2 ^ (f.eb + f.fb) := by
  have hadd := f.infBits_add
  have hlt : 2 ^ (f.fb - 1) < 2 ^ f.fb := Nat.pow_lt_pow_right one_lt_two (by have := hf.fb; omega)
  rw [FFormat.nanBits]
  omega

/-- A result of the dot product of finite terms: a sign and a pattern up to infinity, without NV and DZ. -/
structure FiniteResult (f : FFormat) (neg : Bool) (r : Nat × BitVec 5) : Prop where
  pattern : ∃ k ≤ f.infBits, r.1 = f.signBits neg + k
  nv : r.2.getLsbD 4 = false
  dz : r.2.getLsbD 3 = false

/-- A finite result fits a word. -/
theorem FiniteResult.lt {f : FFormat} {neg : Bool} {r : Nat × BitVec 5} (h : FiniteResult f neg r)
    (hf : f.Usual) : r.1 < 2 ^ 64 := by
  obtain ⟨k, hk, hr⟩ := h.pattern
  exact hr ▸ hf.pattern_lt neg (hk.trans_lt f.infBits_lt)

/-- The final rounding gives such a result. -/
theorem FFormat.Usual.round_finiteResult {f : FFormat} (hf : f.Usual) (rm : BitVec 3) (neg : Bool) {mant : Nat}
    (hm : 0 < mant) (exp : Int) (lost : Bool) : FiniteResult f neg (f.round rm neg mant exp lost) := by
  obtain ⟨k, tiny, -, -, hround, -⟩ := f.round_eq hf.fb rm neg hm exp lost rfl
  rw [hround]
  obtain ⟨-, -, -, hNV, hDZ⟩ := f.rounded_flags rm neg (f.nearby rm neg k (mant * 2 ^ exp)) tiny
    (decide ((mant : ℚ) * 2 ^ exp ≠ f.magnitude k) || lost)
  exact ⟨⟨_, f.stored_le _ _ _, f.rounded_fst ..⟩, hNV, hDZ⟩

/-! ### The sum of finite terms -/

/-- The terms that are not zero. -/
def nonzeroTerms (ts : List Term) : List Term := ts.filter fun t => t.mant != 0

/-- What is added: the terms that are not zero, in units of the least of their exponents. -/
def addends (ts : List Term) : List Int :=
  (nonzeroTerms ts).map fun t => t.scaled (leastExp (nonzeroTerms ts))

/-- The evaluated sum of the addends, and whether precision was lost at the last addition, or before it. -/
def evaluated (f : FFormat) (rm : BitVec 3) (p : SumPlan) (ts : List Term) : Int × Bool × Bool :=
  planTotal p rm (f.fb + 1) (addends ts)

/-- The sign of a sum that is zero. -/
def zeroSign (freeSign : Bool) (ts : List Term) : Bool :=
  if ts.all (fun t => t.mant == 0 && t.neg) then true
  else if ts.all (fun t => t.mant == 0 && !t.neg) then false
  else freeSign

/-- A sum that is evaluated to zero is a zero. -/
theorem finiteDot_of_zero {f : FFormat} {rm : BitVec 3} {p : SumPlan} (freeSign : Bool) {ts : List Term}
    (h : (evaluated f rm p ts).1 = 0) :
    finiteDot f rm p freeSign ts = (f.signBits (zeroSign freeSign ts),
      if (evaluated f rm p ts).2.1 || (evaluated f rm p ts).2.2 && p.inexact then flagNX else 0) := by
  simp only [evaluated, ← sumOf_eq_planTotal p rm (Nat.succ_pos f.fb)] at h ⊢
  exact if_pos h

/-- Another sum is rounded. -/
theorem finiteDot_of_ne_zero {f : FFormat} {rm : BitVec 3} {p : SumPlan} (freeSign : Bool) {ts : List Term}
    (h : (evaluated f rm p ts).1 ≠ 0) :
    finiteDot f rm p freeSign ts =
      f.round rm (decide ((evaluated f rm p ts).1 < 0)) (evaluated f rm p ts).1.natAbs
        (leastExp (nonzeroTerms ts))
        ((evaluated f rm p ts).2.1 || (evaluated f rm p ts).2.2 && p.inexact) := by
  simp only [evaluated, ← sumOf_eq_planTotal p rm (Nat.succ_pos f.fb)] at h ⊢
  exact if_neg h

/-- The result of a dot product of finite terms. -/
theorem finiteDot_result {f : FFormat} (hf : f.Usual) (rm : BitVec 3) (p : SumPlan) (freeSign : Bool)
    (ts : List Term) : ∃ neg, FiniteResult f neg (finiteDot f rm p freeSign ts) := by
  by_cases h : (evaluated f rm p ts).1 = 0
  · rw [finiteDot_of_zero freeSign h]
    refine ⟨_, ⟨0, Nat.zero_le _, rfl⟩, ?_, ?_⟩ <;> dsimp only <;> split <;> rfl
  · rw [finiteDot_of_ne_zero freeSign h]
    exact ⟨_, hf.round_finiteResult rm _ (Int.natAbs_pos.2 h) _ _⟩

/-! ### The dot product by its terms -/

/-- The accumulator and the products. -/
def dotTerms (op : FloatOp) (c : Word) (a b : List Word) (bf : Bool) : List FVal :=
  (floatFormats op bf).2.unpack c.toNat ::
    (a.zip b).map fun p =>
      ((floatFormats op bf).1.unpack p.1.toNat).mul ((floatFormats op bf).1.unpack p.2.toNat)

/-- An operand is NaN. -/
def DotHasNan (op : FloatOp) (c : Word) (a b : List Word) (bf : Bool) : Prop :=
  (floatFormats op bf).2.unpack c.toNat = .nan ∨
    (∃ v ∈ a, (floatFormats op bf).1.unpack v.toNat = .nan) ∨
    ∃ v ∈ b, (floatFormats op bf).1.unpack v.toNat = .nan

/-- A product has no value, or infinities of both signs are added. -/
def DotInvalid (op : FloatOp) (c : Word) (a b : List Word) (bf : Bool) : Prop :=
  (∃ p ∈ a.zip b, (floatFormats op bf).1.unpack p.1.toNat ≠ .nan ∧
    (floatFormats op bf).1.unpack p.2.toNat ≠ .nan ∧
    ((floatFormats op bf).1.unpack p.1.toNat).mul ((floatFormats op bf).1.unpack p.2.toNat) = .nan) ∨
  (.inf false ∈ dotTerms op c a b bf ∧ .inf true ∈ dotTerms op c a b bf)

/-- `isNan` says that a value is NaN. -/
theorem FVal.isNan_iff (v : FVal) : v.isNan = true ↔ v = .nan := by cases v <;> simp [FVal.isNan]

/-- The Boolean of the model for a NaN operand. -/
def dotAnyNan (op : FloatOp) (c : Word) (a b : List Word) (bf : Bool) : Bool :=
  ((floatFormats op bf).2.unpack c.toNat).isNan ||
    ((a.zip b).map fun p =>
      ((floatFormats op bf).1.unpack p.1.toNat, (floatFormats op bf).1.unpack p.2.toNat)).any
      fun p => p.1.isNan || p.2.isNan

/-- The Boolean of the model for an invalid operation. -/
def dotIsInvalid (op : FloatOp) (c : Word) (a b : List Word) (bf : Bool) : Bool :=
  (((a.zip b).map fun p =>
      ((floatFormats op bf).1.unpack p.1.toNat, (floatFormats op bf).1.unpack p.2.toNat)).any
      fun p => !p.1.isNan && !p.2.isNan && (FVal.mul p.1 p.2).isNan) ||
    ((dotTerms op c a b bf).contains (.inf false) && (dotTerms op c a b bf).contains (.inf true))

/-- What the dot product gives, by its kind. -/
def dotOut (op : FloatOp) (c : Word) (a b : List Word) (rm : BitVec 3) (bf : Bool) : Nat × BitVec 5 :=
  let f := (floatFormats op bf).2
  if dotAnyNan op c a b bf then
    (f.nanBits, (Config.fdotNanFlags op c a b rm bf &&& ~~~flagDZ) |||
      (if dotIsInvalid op c a b bf then flagNV else 0))
  else if dotIsInvalid op c a b bf then (f.nanBits, flagNV)
  else if (dotTerms op c a b bf).contains (.inf false) then (f.infBits, 0)
  else if (dotTerms op c a b bf).contains (.inf true) then (f.signBits true + f.infBits, 0)
  else finiteDot f rm (Config.fdotPlan op c a b rm bf) (Config.fdotZeroNegative op c a b rm bf)
    (finiteTerms (dotTerms op c a b bf))

/-- The dot product gives that as a word. -/
theorem fdot_eq (op : FloatOp) (c : Word) (a b : List Word) (rm : BitVec 3) (bf : Bool) :
    fdot op c a b rm bf =
      (BitVec.ofNat 64 (dotOut op c a b rm bf).1, (dotOut op c a b rm bf).2) := by
  simp only [fdot, dotOut, dotAnyNan, dotIsInvalid, dotTerms, List.map_map]
  rfl

/-- A NaN operand is found where every element has its partner. -/
theorem dotAnyNan_iff (op : FloatOp) (c : Word) {a b : List Word} (bf : Bool) (h : a.length = b.length) :
    dotAnyNan op c a b bf = true ↔ DotHasNan op c a b bf := by
  have ha : (∃ v ∈ a, (floatFormats op bf).1.unpack v.toNat = .nan) ↔
      ∃ p ∈ a.zip b, (floatFormats op bf).1.unpack p.1.toNat = .nan := by
    conv_lhs => rw [← List.map_fst_zip h.le]
    simp only [List.mem_map, exists_exists_and_eq_and]
  have hb : (∃ v ∈ b, (floatFormats op bf).1.unpack v.toNat = .nan) ↔
      ∃ p ∈ a.zip b, (floatFormats op bf).1.unpack p.2.toNat = .nan := by
    conv_lhs => rw [← List.map_snd_zip h.ge]
    simp only [List.mem_map, exists_exists_and_eq_and]
  rw [DotHasNan, ha, hb]
  simp only [dotAnyNan, List.any_map, Bool.or_eq_true, FVal.isNan_iff, List.any_eq_true, Function.comp,
    ← exists_or, ← and_or_left]

/-- An invalid operation is found. -/
theorem dotIsInvalid_iff (op : FloatOp) (c : Word) (a b : List Word) (bf : Bool) :
    dotIsInvalid op c a b bf = true ↔ DotInvalid op c a b bf := by
  simp only [dotIsInvalid, DotInvalid, List.any_map, Bool.or_eq_true, Bool.and_eq_true,
    List.any_eq_true, Function.comp, Bool.not_eq_true', ← Bool.not_eq_true, FVal.isNan_iff,
    List.contains_iff_mem, and_assoc, ne_eq]

section Kinds

variable {op : FloatOp} {c : Word} {a b : List Word} {bf : Bool} (rm : BitVec 3)

/-- A NaN operand. -/
theorem dotOut_of_nan (h : dotAnyNan op c a b bf = true) :
    dotOut op c a b rm bf = ((floatFormats op bf).2.nanBits,
      (Config.fdotNanFlags op c a b rm bf &&& ~~~flagDZ) |||
        (if dotIsInvalid op c a b bf then flagNV else 0)) := if_pos h

/-- An invalid operation without a NaN operand. -/
theorem dotOut_of_invalid (hnan : ¬dotAnyNan op c a b bf = true) (h : dotIsInvalid op c a b bf = true) :
    dotOut op c a b rm bf = ((floatFormats op bf).2.nanBits, flagNV) := (if_neg hnan).trans (if_pos h)

/-- An infinite term, the infinities all of one sign. -/
theorem dotOut_of_inf {neg : Bool} (hnan : ¬dotAnyNan op c a b bf = true)
    (hinv : ¬dotIsInvalid op c a b bf = true) (h : .inf neg ∈ dotTerms op c a b bf) :
    dotOut op c a b rm bf = ((floatFormats op bf).2.signBits neg + (floatFormats op bf).2.infBits, 0) := by
  refine (if_neg hnan).trans ((if_neg hinv).trans ?_)
  have hterm : (dotTerms op c a b bf).contains (.inf neg) = true := List.contains_iff_mem.2 h
  cases neg with
  | false => exact (if_pos hterm).trans (by simp [FFormat.signBits])
  | true =>
    have hother : ¬(dotTerms op c a b bf).contains (.inf false) = true := fun hpos =>
      hinv (by simp only [dotIsInvalid, hpos, hterm, Bool.and_self, Bool.or_true])
    exact (if_neg hother).trans (if_pos hterm)

/-- Finite terms. -/
theorem dotOut_of_finite (hnan : ¬dotAnyNan op c a b bf = true)
    (hinv : ¬dotIsInvalid op c a b bf = true) (h : ∀ neg, .inf neg ∉ dotTerms op c a b bf) :
    dotOut op c a b rm bf = finiteDot (floatFormats op bf).2 rm (Config.fdotPlan op c a b rm bf)
      (Config.fdotZeroNegative op c a b rm bf) (finiteTerms (dotTerms op c a b bf)) := by
  have hterm : ∀ neg, ¬(dotTerms op c a b bf).contains (.inf neg) = true := fun neg hmem =>
    h neg (List.contains_iff_mem.1 hmem)
  exact (if_neg hnan).trans ((if_neg hinv).trans ((if_neg (hterm false)).trans (if_neg (hterm true))))

end Kinds

/-- The result fits a word, and DZ is never raised. -/
theorem dotOut_bounds (op : FloatOp) (c : Word) (a b : List Word) (rm : BitVec 3) (bf : Bool) :
    (dotOut op c a b rm bf).1 < 2 ^ 64 ∧ (dotOut op c a b rm bf).2.getLsbD 3 = false := by
  have hf := floatFormats_usual op bf
  have hnan : (floatFormats op bf).2.nanBits < 2 ^ 64 := by
    simpa [FFormat.signBits] using hf.pattern_lt false hf.nanBits_lt
  obtain ⟨neg, hfin⟩ := finiteDot_result hf rm (Config.fdotPlan op c a b rm bf)
    (Config.fdotZeroNegative op c a b rm bf) (finiteTerms (dotTerms op c a b bf))
  by_cases hn : dotAnyNan op c a b bf = true
  · rw [dotOut_of_nan rm hn]
    refine ⟨hnan, ?_⟩
    cases dotIsInvalid op c a b bf <;> simp [flagDZ, flagNV]
  by_cases hi : dotIsInvalid op c a b bf = true
  · rw [dotOut_of_invalid rm hn hi]
    exact ⟨hnan, by simp [flagNV]⟩
  by_cases hinf : ∃ neg, .inf neg ∈ dotTerms op c a b bf
  · obtain ⟨neg, hmem⟩ := hinf
    rw [dotOut_of_inf rm hn hi hmem]
    exact ⟨hf.pattern_lt neg (floatFormats op bf).2.infBits_lt, by simp⟩
  · rw [dotOut_of_finite rm hn hi (not_exists.1 hinf)]
    exact ⟨hfin.lt hf, hfin.dz⟩

/-- The dot product as a number and flags. -/
theorem fdot_toNat (op : FloatOp) (c : Word) (a b : List Word) (rm : BitVec 3) (bf : Bool) :
    ((fdot op c a b rm bf).1.toNat, (fdot op c a b rm bf).2) = dotOut op c a b rm bf := by
  rw [fdot_eq, BitVec.toNat_ofNat, Nat.mod_eq_of_lt (dotOut_bounds op c a b rm bf).1]

/-- Settles O44, by the kinds of operands that the dot product tells apart. -/
theorem dotProperties : Obligations.DotProperties := by
  intro op c a b rm bf hlen src acc val terms r hasNan invalid
  have hbits : r.1.toNat = (dotOut op c a b rm bf).1 := congrArg Prod.fst (fdot_toNat op c a b rm bf)
  have hflags : r.2 = (dotOut op c a b rm bf).2 := congrArg Prod.snd (fdot_toNat op c a b rm bf)
  have hnan : hasNan ↔ dotAnyNan op c a b bf = true := (dotAnyNan_iff op c bf hlen).symm
  have hinv : invalid ↔ dotIsInvalid op c a b bf = true := (dotIsInvalid_iff op c a b bf).symm
  have hinf : ∀ neg, .inf neg ∈ terms → ¬hasNan → ¬invalid →
      r.1.toNat = acc.signBits neg + acc.infBits ∧ r.2 = 0 := fun neg hmem hn hi => by
    rw [hbits, hflags, dotOut_of_inf rm (hnan.not.1 hn) (hinv.not.1 hi) hmem]
    exact ⟨rfl, rfl⟩
  refine ⟨fun h => ?_, fun hi => ?_, fun hn hi hmem => ?_, fun hn hi hmem => hinf true hmem hn hi,
    hflags ▸ (dotOut_bounds op c a b rm bf).2⟩
  · rw [hbits]
    by_cases hn : dotAnyNan op c a b bf = true
    · rw [dotOut_of_nan rm hn]
    · rw [dotOut_of_invalid rm hn (hinv.1 (h.resolve_left (hnan.not.2 hn)))]
  · rw [hflags]
    by_cases hn : dotAnyNan op c a b bf = true
    · rw [dotOut_of_nan rm hn, if_pos (hinv.1 hi)]
      simp [flagNV]
    · rw [dotOut_of_invalid rm hn (hinv.1 hi)]
      simp [flagNV]
  · obtain ⟨hpattern, hzero⟩ := hinf false hmem hn hi
    exact ⟨hpattern.trans (Nat.zero_add _), hzero⟩

end Sys2Proof.Machine
end

section
/-! The evaluation of a sum of finite terms (family 40_matmul_float.md): it keeps the sign that all terms have, it is
exact for terms that are together no wider than a significand, and a single term keeps its leading bit. -/

namespace Sys2Proof.Machine

/-! ### Terms as numbers -/

/-- The value that a term stands for. -/
def Term.val (t : Term) : FVal := .fin t.neg t.mant t.exp

/-- Finite values are those of their terms. -/
theorem map_val_finiteTerms {l : List FVal} (h : ∀ v ∈ l, ∃ neg mant exp, v = .fin neg mant exp) :
    (finiteTerms l).map Term.val = l := by
  induction l with
  | nil => rfl
  | cons v l ih =>
    obtain ⟨neg, mant, exp, rfl⟩ := h v (List.mem_cons_self ..)
    rw [finiteTerms, List.map_cons, ih fun u hu => h u (List.mem_cons_of_mem _ hu)]
    rfl

/-- No term has an exponent below the least one. -/
theorem leastExp_le {ts : List Term} {t : Term} (h : t ∈ ts) : leastExp ts ≤ t.exp := by
  induction ts with
  | nil => simp at h
  | cons u ts ih =>
    cases ts with
    | nil => rw [List.mem_singleton.1 h]; rfl
    | cons w ts =>
      rcases List.mem_cons.1 h with rfl | h
      · exact min_le_left _ _
      · exact (min_le_right _ _).trans (ih h)

/-- A term at a lower exponent is the same number. -/
theorem scaled_mul_zpow {t : Term} {e : Int} (h : e ≤ t.exp) :
    (t.scaled e : ℚ) * 2 ^ e = t.val.number := by
  obtain ⟨n, hn⟩ := Int.eq_ofNat_of_zero_le (sub_nonneg.2 h)
  have hpow : (2 : ℚ) ^ t.exp = 2 ^ n * 2 ^ e := by
    rw [← zpow_natCast, ← zpow_add₀ two_ne_zero, ← hn, sub_add_cancel]
  simp only [Term.scaled, Term.at, Term.val, FVal.number, hn, Int.toNat_natCast, hpow]
  split <;> (push_cast; ring)

/-- The sign of a scaled term is that of the number. -/
theorem scaled_pos_iff {t : Term} {e σ : Int} (h : e ≤ t.exp) :
    0 < σ * t.scaled e ↔ 0 < σ * t.val.number := by
  have hunit : (0 : ℚ) < 2 ^ e := by positivity
  rw [← scaled_mul_zpow h, ← mul_assoc, mul_pos_iff_of_pos_right hunit]
  exact_mod_cast Iff.rfl

/-- A term is zero exactly if its mantissa is. -/
theorem val_number_eq_zero_iff {t : Term} : t.val.number = 0 ↔ t.mant = 0 := by
  have hunit : (2 : ℚ) ^ t.exp ≠ 0 := by positivity
  cases h : t.neg <;> simp [Term.val, FVal.number, h, hunit]

/-- A term among those that are not zero. -/
theorem mem_nonzeroTerms {ts : List Term} {t : Term} :
    t ∈ nonzeroTerms ts ↔ t ∈ ts ∧ t.val.number ≠ 0 := by
  simp [nonzeroTerms, val_number_eq_zero_iff]

/-- The number of an addend. -/
theorem addend_number {ts : List Term} {v : Int} (h : v ∈ addends ts) :
    ∃ t ∈ ts, t.val.number ≠ 0 ∧ (v : ℚ) * 2 ^ leastExp (nonzeroTerms ts) = t.val.number := by
  obtain ⟨t, ht, rfl⟩ := List.mem_map.1 h
  obtain ⟨hmem, hne⟩ := mem_nonzeroTerms.1 ht
  exact ⟨t, hmem, hne, scaled_mul_zpow (leastExp_le ht)⟩

/-- Terms that are zero add nothing. -/
theorem sum_nonzeroTerms (ts : List Term) {g : ℚ → ℚ} (hg : g 0 = 0) :
    ((nonzeroTerms ts).map fun t => g t.val.number).sum = (ts.map fun t => g t.val.number).sum := by
  induction ts with
  | nil => rfl
  | cons t ts ih =>
    by_cases h : t.mant = 0
    · rw [nonzeroTerms, List.filter_cons_of_neg (by simp [h]), ← nonzeroTerms, ih, List.map_cons, List.sum_cons,
        val_number_eq_zero_iff.2 h, hg, zero_add]
    · rw [nonzeroTerms, List.filter_cons_of_pos (by simp [h]), ← nonzeroTerms, List.map_cons, List.map_cons,
        List.sum_cons, List.sum_cons, ih]

/-- The sum of the addends, and the sum of their magnitudes, are those of the terms. -/
theorem addends_sum (ts : List Term) :
    ((addends ts).sum : ℚ) * 2 ^ leastExp (nonzeroTerms ts) = (ts.map fun t => t.val.number).sum ∧
    (((addends ts).map Int.natAbs).sum : ℚ) * 2 ^ leastExp (nonzeroTerms ts) =
      (ts.map fun t => |t.val.number|).sum := by
  have hunit : (0 : ℚ) < 2 ^ leastExp (nonzeroTerms ts) := by positivity
  refine ⟨Eq.trans ?_ (sum_nonzeroTerms ts (g := id) rfl),
    Eq.trans ?_ (sum_nonzeroTerms ts (g := abs) abs_zero)⟩
  · rw [addends, Int.cast_list_sum, List.map_map, ← List.sum_map_mul_right]
    refine congrArg List.sum (List.map_congr_left fun t ht => ?_)
    exact scaled_mul_zpow (leastExp_le ht)
  · rw [addends, Nat.cast_list_sum, List.map_map, List.map_map, ← List.sum_map_mul_right]
    refine congrArg List.sum (List.map_congr_left fun t ht => ?_)
    rw [← scaled_mul_zpow (leastExp_le ht), abs_mul, abs_of_pos hunit]
    simp [Nat.cast_natAbs]

/-! ### Roundings of intermediate values -/

/-- Rounding to a number of bits keeps the sign and does not fall below the leading bit. -/
theorem roundTo_spec (rm : BitVec 3) {bits : Nat} (hb : 0 < bits) {v : Int} (hv : v ≠ 0) :
    (roundTo rm bits v).sign = v.sign ∧ 2 ^ v.natAbs.log2 ≤ (roundTo rm bits v).natAbs := by
  have hn : v.natAbs ≠ 0 := Int.natAbs_ne_zero.2 hv
  have hlow := Nat.log2_self_le hn
  unfold roundTo
  dsimp only
  split
  case isTrue => exact ⟨rfl, hlow⟩
  case isFalse hl =>
    generalize hd : v.natAbs.log2 + 1 - bits = d
    generalize hm : v.natAbs / 2 ^ d + (roundsUp rm (decide (v < 0)) (v.natAbs / 2 ^ d) (v.natAbs % 2 ^ d) d).toNat = m
    have hle : 2 ^ v.natAbs.log2 ≤ m * 2 ^ d := by
      have hdiv : 2 ^ (v.natAbs.log2 - d) ≤ v.natAbs / 2 ^ d := by
        rw [Nat.le_div_iff_mul_le (by positivity), ← pow_add]
        exact (Nat.pow_le_pow_right two_pos (by omega)).trans hlow
      calc 2 ^ v.natAbs.log2 = 2 ^ (v.natAbs.log2 - d) * 2 ^ d := by rw [← pow_add]; congr 1; omega
        _ ≤ m * 2 ^ d := Nat.mul_le_mul_right _ (by omega)
    have hpos : 0 < m * 2 ^ d := (Nat.two_pow_pos _).trans_le hle
    rcases lt_or_gt_of_ne hv with hneg | hpos'
    · rw [if_pos hneg, Int.natAbs_neg, Int.natAbs_natCast, Int.sign_neg, Int.sign_natCast_of_ne_zero hpos.ne',
        Int.sign_eq_neg_one_of_neg hneg]
      exact ⟨rfl, hle⟩
    · rw [if_neg (not_lt.2 hpos'.le), Int.natAbs_natCast, Int.sign_natCast_of_ne_zero hpos.ne',
        Int.sign_eq_one_of_pos hpos']
      exact ⟨rfl, hle⟩

/-- So does what an evaluation keeps of a value. -/
theorem keepValue_spec (p : SumPlan) (rm : BitVec 3) {bits : Nat} (hb : 0 < bits) (i : Nat) {v : Int}
    (hv : v ≠ 0) :
    (keepValue p rm bits i v).sign = v.sign ∧ 2 ^ v.natAbs.log2 ≤ (keepValue p rm bits i v).natAbs := by
  unfold keepValue
  split
  · exact ⟨rfl, Nat.log2_self_le (Int.natAbs_ne_zero.2 hv)⟩
  · exact roundTo_spec rm (Nat.add_pos_left hb _) hv

/-- What is kept of a value lies on the same side of zero. -/
theorem keepValue_pos (p : SumPlan) (rm : BitVec 3) {bits : Nat} (hb : 0 < bits) (i : Nat) {σ v : Int}
    (h : 0 < σ * v) : 0 < σ * keepValue p rm bits i v := by
  have hv : v ≠ 0 := right_ne_zero_of_mul h.ne'
  rw [← Int.sign_eq_one_iff_pos, Int.sign_mul, (keepValue_spec p rm hb i hv).1, ← Int.sign_mul,
    Int.sign_eq_one_iff_pos]
  exact h

/-! ### The evaluation -/

/-- A sum of numbers on one side of zero lies there. -/
theorem mul_sum_pos {σ : Int} {vs : List Int} (hne : vs ≠ []) (h : ∀ v ∈ vs, 0 < σ * v) : 0 < σ * vs.sum := by
  have hsum : 0 < (vs.map fun v => σ * v).sum :=
    List.sum_pos _ (by simpa using h) (by simpa using hne)
  rwa [List.sum_map_mul_left, List.map_id'] at hsum

/-- Values on one side of zero have a total on that side. -/
theorem planTotal_pos (p : SumPlan) (rm : BitVec 3) {bits : Nat} (hb : 0 < bits) {σ : Int} {vs : List Int}
    (hne : vs ≠ []) (h : ∀ v ∈ vs, 0 < σ * v) : 0 < σ * (planTotal p rm bits vs).1 := by
  have hlen : 0 < vs.length := List.length_pos_iff.2 hne
  generalize hterms : (if vs.length ≤ 1 then vs else vs.mapIdx fun i v => keepValue p rm bits i v) = terms
  have hlt : terms.length = vs.length := by rw [← hterms]; split <;> simp
  have hpos : ∀ v ∈ terms, 0 < σ * v := by
    rw [← hterms]
    split
    · exact h
    · intro w hw
      obtain ⟨i, hi, rfl⟩ := List.mem_mapIdx.1 hw
      exact keepValue_pos p rm hb _ (h _ (List.getElem_mem hi))
  obtain ⟨hl, hall⟩ := addValues_closed p rm bits (P := fun v => 0 < σ * v)
    (fun x y hx hy => by rw [mul_add]; exact add_pos hx hy) (fun i x hx => keepValue_pos p rm hb i hx)
    (vs.length - 2) vs.length terms (by omega) hpos
  simp only [planTotal, hterms]
  refine keepValue_pos p rm (Nat.succ_pos bits) _ ?_
  exact mul_sum_pos (List.ne_nil_of_length_pos (by omega)) hall

/-- Values that are multiples of a power of two and together no wider than the intermediate values are added
exactly. -/
theorem planTotal_of_dvd (p : SumPlan) (rm : BitVec 3) {bits t : Nat} (hb : 0 < bits) {vs : List Int}
    (hd : ∀ v ∈ vs, 2 ^ t ∣ v.natAbs) (hs : (vs.map Int.natAbs).sum ≤ 2 ^ t * 2 ^ bits) :
    planTotal p rm bits vs = (vs.sum, false, false) := by
  have hwider : 2 ^ t * 2 ^ bits ≤ 2 ^ t * 2 ^ (bits + 1) :=
    Nat.mul_le_mul_left _ (Nat.pow_le_pow_right two_pos (Nat.le_succ bits))
  refine planTotal_of_exact p rm (t := t)
    (fun _ i v hv => keepValue_exact p rm i hb (hd v hv) ((natAbs_le_sum hv).trans hs)) ?_
    (dvd_natAbs_sum hd) ((natAbs_sum_le vs).trans (hs.trans hwider))
  cases vs with
  | nil => exact ⟨rfl, rfl⟩
  | cons v vs => exact addValues_exact p rm hb _ _ _ (by simp only [List.length_cons]; omega) hd hs

/-- A single value is rounded at most once. -/
theorem planTotal_singleton (p : SumPlan) (rm : BitVec 3) (bits : Nat) (v : Int) :
    (planTotal p rm bits [v]).1 = keepValue p rm (bits + 1) 2 v := by
  simp [planTotal, addValues]

end Sys2Proof.Machine
end

section
/-! The dot product of finite terms (family 40_matmul_float.md): exact sums, sums of one sign, one term that
overflows, and the dot product of no elements. -/

namespace Sys2Proof.Machine

/-! ### The rounding of particular numbers -/

/-- The number of a finite pattern is rounded to that pattern, with no flag. -/
theorem FFormat.Usual.round_magnitude {f : FFormat} (hf : f.Usual) (rm : BitVec 3) (neg : Bool) {mant k : Nat}
    {exp : Int} (hm : 0 < mant) (hk : k < f.infBits) (hx : (mant : ℚ) * 2 ^ exp = f.magnitude k) :
    f.round rm neg mant exp false = (f.signBits neg + k, 0) := by
  obtain ⟨j, tiny, hlo, hhi, hround, -⟩ := f.round_eq hf.fb rm neg hm exp false hx.symm
  obtain rfl : k = j := by
    have hle := f.magnitude_strictMono.le_iff_le.1 hlo
    have hlt := f.magnitude_strictMono.lt_iff_lt.1 hhi
    omega
  have hself := awayFrom_self rm neg (k % 2 == 1) (f.magnitude_strictMono (Nat.lt_succ_self k))
  rw [hround]
  simp [FFormat.rounded, FFormat.nearby, hself, hk]

/-- The power of two that the pattern of infinity is taken for. -/
theorem FFormat.Usual.magnitude_infBits {f : FFormat} (hf : f.Usual) :
    f.magnitude f.infBits = 2 ^ (f.bias + 1) := by
  have hpow : 2 ^ f.eb = 2 * f.bias + 2 := by
    obtain ⟨n, hn⟩ := Nat.exists_eq_add_of_le' hf.eb
    have hpos := Nat.two_pow_pos n
    simp only [FFormat.bias, hn, show n + 2 - 1 = n + 1 by omega, pow_succ]
    omega
  have hinf : f.infBits = 2 * f.bias * 2 ^ f.fb + 2 ^ f.fb := by
    rw [FFormat.infBits, hpow, ← Nat.succ_mul]
    rfl
  rw [hinf, f.magnitude_at (Nat.pow_le_pow_right two_pos (Nat.le_succ _)) (.inr le_rfl), FFormat.emin]
  push_cast
  rw [← zpow_natCast, ← zpow_natCast, ← zpow_add₀ two_ne_zero]
  congr 1
  push_cast
  ring

/-- A number that reaches this power of two overflows. -/
theorem FFormat.Usual.round_overflow {f : FFormat} (hf : f.Usual) (rm : BitVec 3) (neg : Bool) {mant : Nat}
    {exp : Int} (lost : Bool) (hm : 0 < mant) (hx : 2 ^ (f.bias + 1) ≤ (mant : ℚ) * 2 ^ exp) :
    f.round rm neg mant exp lost =
      (f.signBits neg + (if overflowsToInf rm neg then f.infBits else f.infBits - 1), flagOF ||| flagNX) := by
  obtain ⟨k, tiny, hlo, hhi, hround, -⟩ := f.round_eq hf.fb rm neg hm exp lost rfl
  have hk : f.infBits ≤ k := by
    rw [← hf.magnitude_infBits] at hx
    exact (magnitude_le_iff hlo hhi _).1 hx
  rw [hround]
  exact if_pos (hk.trans (Nat.le_add_right ..))

/-! ### Exact sums -/

/-- A multiple of a power of two has the sign of its factor. -/
theorem mul_zpow_neg_iff (v e : Int) : (v : ℚ) * 2 ^ e < 0 ↔ v < 0 := by
  have hpos : (0 : ℚ) < 2 ^ e := by positivity
  rw [← Int.cast_lt_zero (R := ℚ)]
  exact ⟨fun h => neg_of_mul_neg_left h hpos.le, fun h => mul_neg_of_neg_of_pos h hpos⟩

section Exact

variable {f : FFormat} (rm : BitVec 3) (p : SumPlan) {ts : List Term} {e : Int}
  (hunit : ∀ t ∈ ts, ∃ n : Int, t.val.number = n * (2 : ℚ) ^ e)
  (hwidth : (ts.map fun t => |t.val.number|).sum ≤ (2 : ℚ) ^ (e + f.fb + 1))

include hunit hwidth

/-- Terms that are multiples of one power of two and together at most one significand wide are added exactly. -/
theorem evaluated_exact : evaluated f rm p ts = ((addends ts).sum, false, false) := by
  obtain ⟨-, habs⟩ := addends_sum ts
  set e' := leastExp (nonzeroTerms ts) with he'
  have hpos : (0 : ℚ) < 2 ^ e' := by positivity
  refine planTotal_of_dvd p rm (t := (e - e').toNat) (Nat.succ_pos _) (fun v hv => ?_) ?_
  · obtain ⟨t, ht, -, hnumber⟩ := addend_number hv
    obtain ⟨n, hn⟩ := hunit t ht
    rcases le_total e e' with hle | hle
    · simp [Int.toNat_of_nonpos (sub_nonpos.2 hle)]
    · rw [← Int.natCast_dvd]
      refine ⟨n, ?_⟩
      have heq : (v : ℚ) * 2 ^ e' = (((2 ^ (e - e').toNat : Nat) : Int) * n : Int) * 2 ^ e' := by
        rw [← he'] at hnumber
        rw [hnumber, hn]
        push_cast
        rw [← zpow_natCast, Int.toNat_of_nonneg (sub_nonneg.2 hle), mul_right_comm,
          ← zpow_add₀ two_ne_zero, sub_add_cancel, mul_comm]
      exact_mod_cast mul_right_cancel₀ hpos.ne' heq
  · have hle : (((addends ts).map Int.natAbs).sum : ℚ) * 2 ^ e' ≤
        ((2 ^ (e - e').toNat * 2 ^ (f.fb + 1) : Nat) : ℚ) * 2 ^ e' := by
      rw [habs]
      refine hwidth.trans ?_
      push_cast
      rw [← zpow_natCast, ← zpow_natCast, ← zpow_add₀ two_ne_zero, ← zpow_add₀ two_ne_zero]
      exact zpow_le_zpow_right₀ one_le_two (by push_cast; omega)
    exact_mod_cast le_of_mul_le_mul_right hle hpos

variable {k : Int} (hsum : (ts.map fun t => t.val.number).sum = k * (2 : ℚ) ^ e)

include hsum

/-- An exact sum that is not zero is rounded once. -/
theorem finiteDot_exact (freeSign : Bool) (hk : k ≠ 0) :
    finiteDot f rm p freeSign ts = f.round rm (decide (k < 0)) k.natAbs e false := by
  have heval := evaluated_exact rm p hunit hwidth
  obtain ⟨hadd, -⟩ := addends_sum ts
  rw [hsum] at hadd
  have hpos : (0 : ℚ) < 2 ^ leastExp (nonzeroTerms ts) := by positivity
  have hpos' : (0 : ℚ) < 2 ^ e := by positivity
  have hk' : (k : ℚ) * 2 ^ e ≠ 0 := mul_ne_zero (Int.cast_ne_zero.2 hk) hpos'.ne'
  have hne : (addends ts).sum ≠ 0 := by
    rintro h
    rw [h, Int.cast_zero, zero_mul] at hadd
    exact hk' hadd.symm
  have hsign : (addends ts).sum < 0 ↔ k < 0 := by
    rw [← mul_zpow_neg_iff _ (leastExp (nonzeroTerms ts)), hadd, mul_zpow_neg_iff]
  have hmag : ((addends ts).sum.natAbs : ℚ) * 2 ^ leastExp (nonzeroTerms ts) = (k.natAbs : ℚ) * 2 ^ e := by
    have habs := congrArg abs hadd
    rwa [abs_mul, abs_mul, abs_of_pos hpos, abs_of_pos hpos', ← Int.cast_abs, ← Int.cast_abs,
      ← Nat.cast_natAbs, ← Nat.cast_natAbs] at habs
  rw [finiteDot_of_ne_zero freeSign (by rwa [heval]), heval]
  simp only [hsign, Bool.false_and, Bool.or_false]
  exact f.round_congr rm _ false (Int.natAbs_pos.2 hne) (Int.natAbs_pos.2 hk) hmag

/-- An exact sum that is zero is a zero with no flag. -/
theorem finiteDot_exact_zero (freeSign : Bool) (hk : k = 0) :
    finiteDot f rm p freeSign ts = (f.signBits (zeroSign freeSign ts), 0) := by
  have heval := evaluated_exact rm p hunit hwidth
  obtain ⟨hadd, -⟩ := addends_sum ts
  have hpos : (0 : ℚ) < 2 ^ leastExp (nonzeroTerms ts) := by positivity
  rw [hsum, hk, Int.cast_zero, zero_mul, mul_eq_zero_iff_right hpos.ne', Int.cast_eq_zero] at hadd
  rw [finiteDot_of_zero freeSign (by rw [heval, hadd]), heval]
  rfl

end Exact

/-! ### Sums of one sign -/

/-- Terms on one side of zero, not all of them zero, have a result of that sign. -/
theorem finiteDot_oneSign {f : FFormat} (hf : f.Usual) (rm : BitVec 3) (p : SumPlan) (freeSign : Bool)
    {ts : List Term} {σ : Int} (hσ : σ = 1 ∨ σ = -1) (h : ∀ t ∈ ts, 0 ≤ σ * t.val.number)
    (hne : ∃ t ∈ ts, t.val.number ≠ 0) :
    FiniteResult f (decide (σ < 0)) (finiteDot f rm p freeSign ts) := by
  obtain ⟨u, hu, hnumber⟩ := hne
  have haddends : addends ts ≠ [] := by
    simpa [addends] using List.ne_nil_of_mem (mem_nonzeroTerms.2 ⟨hu, hnumber⟩)
  have hσ0 : (σ : ℚ) ≠ 0 := by rcases hσ with rfl | rfl <;> norm_num
  have hpos : ∀ v ∈ addends ts, 0 < σ * v := fun v hv => by
    obtain ⟨t, ht, rfl⟩ := List.mem_map.1 hv
    obtain ⟨hmem, hne⟩ := mem_nonzeroTerms.1 ht
    rw [scaled_pos_iff (leastExp_le ht)]
    exact (h t hmem).lt_of_ne (mul_ne_zero hσ0 hne).symm
  have htotal : 0 < σ * (evaluated f rm p ts).1 := planTotal_pos p rm (Nat.succ_pos _) haddends hpos
  have hnz : (evaluated f rm p ts).1 ≠ 0 := right_ne_zero_of_mul htotal.ne'
  have hsign : (evaluated f rm p ts).1 < 0 ↔ σ < 0 := by
    rcases hσ with rfl | rfl <;> omega
  rw [finiteDot_of_ne_zero freeSign hnz, decide_eq_decide.2 hsign]
  exact hf.round_finiteResult rm _ (Int.natAbs_pos.2 hnz) _ _

/-! ### One term -/

/-- The only term that is not zero. -/
theorem nonzeroTerms_of_single {before after : List Term} {t : Term} (ht : t.val.number ≠ 0)
    (h : ∀ u ∈ before ++ after, u.val.number = 0) : nonzeroTerms (before ++ t :: after) = [t] := by
  have hzero : ∀ l : List Term, (∀ u ∈ l, u ∈ before ++ after) → nonzeroTerms l = [] := fun l hl =>
    List.filter_eq_nil_iff.2 fun u hu => by simp [val_number_eq_zero_iff.1 (h u (hl u hu))]
  rw [nonzeroTerms, List.filter_append, List.filter_cons_of_pos (by simpa [val_number_eq_zero_iff] using ht),
    ← nonzeroTerms, ← nonzeroTerms, hzero before (by simp +contextual), hzero after (by simp +contextual)]
  rfl

/-- One term that is not zero and reaches the power of two after the largest finite number overflows. -/
theorem finiteDot_overflow {f : FFormat} (hf : f.Usual) (rm : BitVec 3) (p : SumPlan) (freeSign : Bool)
    {ts : List Term} {t : Term} (hts : nonzeroTerms ts = [t])
    (hbig : (2 : ℚ) ^ (f.bias + 1) ≤ |t.val.number|) :
    finiteDot f rm p freeSign ts =
      (f.signBits (decide (t.val.number < 0)) +
        (if overflowsToInf rm (decide (t.val.number < 0)) then f.infBits else f.infBits - 1), flagOF ||| flagNX) := by
  have hpos : (0 : ℚ) < 2 ^ t.exp := by positivity
  generalize hv : t.scaled t.exp = v
  have hnumber : (v : ℚ) * 2 ^ t.exp = t.val.number := hv ▸ scaled_mul_zpow le_rfl
  have hv0 : v ≠ 0 := by
    rintro rfl
    rw [← hnumber, Int.cast_zero, zero_mul, abs_zero] at hbig
    exact absurd hbig (not_le.2 (by positivity))
  have heval : (evaluated f rm p ts).1 = keepValue p rm (f.fb + 2) 2 v := by
    rw [evaluated, addends, hts, List.map_singleton, leastExp, hv, planTotal_singleton]
  obtain ⟨hsign, hlead⟩ := keepValue_spec p rm (bits := f.fb + 2) (Nat.succ_pos _) 2 hv0
  rw [← heval] at hsign hlead
  have hnz : (evaluated f rm p ts).1 ≠ 0 := by
    rwa [ne_eq, ← Int.sign_eq_zero_iff_zero, hsign, Int.sign_eq_zero_iff_zero]
  have hneg : (evaluated f rm p ts).1 < 0 ↔ t.val.number < 0 := by
    rw [← Int.sign_eq_neg_one_iff_neg, hsign, Int.sign_eq_neg_one_iff_neg, ← hnumber, mul_zpow_neg_iff]
  have hreach : (2 : ℚ) ^ (f.bias + 1) ≤ ((evaluated f rm p ts).1.natAbs : ℚ) * 2 ^ t.exp := by
    have habs : |t.val.number| = (v.natAbs : ℚ) * 2 ^ t.exp := by
      rw [← hnumber, abs_mul, abs_of_pos hpos, Nat.cast_natAbs, Int.cast_abs]
    obtain ⟨hlow, hhigh⟩ := number_bounds (Int.natAbs_pos.2 hv0) t.exp
    rw [← habs] at hhigh
    have hexp : ((f.bias + 1 : Nat) : Int) < (v.natAbs.log2 : Int) + t.exp + 1 := by
      rw [← zpow_natCast] at hbig
      exact (zpow_lt_zpow_iff_right₀ (one_lt_two (α := ℚ))).1 (hbig.trans_lt hhigh)
    calc (2 : ℚ) ^ (f.bias + 1) ≤ 2 ^ ((v.natAbs.log2 : Int) + t.exp) := by
          rw [← zpow_natCast]
          exact zpow_le_zpow_right₀ one_le_two (by omega)
      _ = ((2 ^ v.natAbs.log2 : Nat) : ℚ) * 2 ^ t.exp := by
          rw [zpow_add₀ two_ne_zero, zpow_natCast]
          push_cast
          rfl
      _ ≤ ((evaluated f rm p ts).1.natAbs : ℚ) * 2 ^ t.exp :=
          mul_le_mul_of_nonneg_right (Nat.cast_le.2 hlead) hpos.le
  rw [finiteDot_of_ne_zero freeSign hnz, hts, leastExp, decide_eq_decide.2 hneg]
  exact hf.round_overflow rm _ _ (Int.natAbs_pos.2 hnz) hreach

end Sys2Proof.Machine
end

section
/-! The statement on the dot product of finite terms (family 40_matmul_float.md): the value of a pattern, the dot
product of no elements, and the clauses read off the sum of the terms. -/

namespace Sys2Proof.Machine

/-! ### The value of a pattern -/

/-- A pattern is a sign and a pattern without a sign. -/
theorem FFormat.exists_sign (f : FFormat) {v : Nat} (hv : v < 2 ^ (1 + f.eb + f.fb)) :
    ∃ neg k, k < 2 ^ (f.eb + f.fb) ∧ v = f.signBits neg + k := by
  rw [add_assoc, add_comm 1, pow_succ] at hv
  by_cases h : v < 2 ^ (f.eb + f.fb)
  · exact ⟨false, v, h, by simp [FFormat.signBits]⟩
  · exact ⟨true, v - 2 ^ (f.eb + f.fb), by omega, by simp only [FFormat.signBits, if_true]; omega⟩

/-- The fields of a pattern. -/
theorem FFormat.pattern_fields (f : FFormat) (neg : Bool) {k : Nat} (hk : k < 2 ^ (f.eb + f.fb)) :
    (f.signBits neg + k) % 2 ^ f.fb = k % 2 ^ f.fb ∧
      (f.signBits neg + k) / 2 ^ f.fb % 2 ^ f.eb = k / 2 ^ f.fb ∧
      ((f.signBits neg + k) / 2 ^ (f.eb + f.fb) % 2 == 1) = neg := by
  have hfb : 0 < 2 ^ f.fb := by positivity
  have hall : 0 < 2 ^ (f.eb + f.fb) := by positivity
  have hexp : k / 2 ^ f.fb < 2 ^ f.eb := Nat.div_lt_of_lt_mul (by rwa [mul_comm, ← pow_add])
  cases neg with
  | false => simp [FFormat.signBits, Nat.mod_eq_of_lt hexp, Nat.div_eq_of_lt hk]
  | true =>
    have hsign : f.signBits true = 2 ^ f.fb * 2 ^ f.eb := by rw [mul_comm, ← pow_add]; rfl
    refine ⟨by rw [hsign, Nat.mul_add_mod], ?_, ?_⟩
    · rw [hsign, Nat.mul_add_div hfb, Nat.add_mod_left, Nat.mod_eq_of_lt hexp]
    · rw [FFormat.signBits, if_pos rfl, Nat.add_div_left _ hall, Nat.div_eq_of_lt hk]
      rfl

/-- The value of a pattern: a NaN above infinity, and a number of its magnitude below. -/
theorem FFormat.unpack_pattern (f : FFormat) (neg : Bool) {k : Nat} (hk : k < 2 ^ (f.eb + f.fb)) :
    (f.infBits < k ∧ f.unpack (f.signBits neg + k) = .nan) ∨
    (k = f.infBits ∧ f.unpack (f.signBits neg + k) = .inf neg) ∨
    (k < f.infBits ∧ ∃ mant exp, f.unpack (f.signBits neg + k) = .fin neg mant exp ∧
      mant < 2 ^ (f.fb + 1) ∧ (mant : ℚ) * 2 ^ exp = f.magnitude k) := by
  obtain ⟨hfrac, hexp, hneg⟩ := f.pattern_fields neg hk
  have hfb : 0 < 2 ^ f.fb := by positivity
  have hmod := Nat.mod_lt k hfb
  have hdiv := Nat.div_add_mod' k (2 ^ f.fb)
  have hadd := f.infBits_add
  have hlt : k / 2 ^ f.fb < 2 ^ f.eb := Nat.div_lt_of_lt_mul (by rwa [mul_comm, ← pow_add])
  simp only [FFormat.unpack, hfrac, hexp, hneg]
  by_cases htop : k / 2 ^ f.fb = 2 ^ f.eb - 1
  · have hk' : k = f.infBits + k % 2 ^ f.fb := by rw [FFormat.infBits, ← htop, hdiv]
    by_cases h0 : k % 2 ^ f.fb = 0
    · exact .inr (.inl ⟨by omega, by simp [htop, h0]⟩)
    · exact .inl ⟨by omega, by simp [htop, h0]⟩
  · have hfin : k < f.infBits := by
      rw [FFormat.infBits, ← Nat.div_lt_iff_lt_mul hfb]
      omega
    refine .inr (.inr ⟨hfin, ?_⟩)
    rw [if_neg htop, pow_succ]
    by_cases h0 : k / 2 ^ f.fb = 0
    · have hsub : k < 2 ^ f.fb := (Nat.div_eq_zero_iff_lt hfb).1 h0
      rw [if_pos h0, Nat.mod_eq_of_lt hsub, FFormat.magnitude, if_pos hsub]
      exact ⟨k, _, rfl, by omega, rfl⟩
    · have hnormal : ¬ k < 2 ^ f.fb := fun h => h0 (Nat.div_eq_of_lt h)
      rw [if_neg h0, FFormat.magnitude, if_neg hnormal]
      refine ⟨_, _, rfl, by omega, ?_⟩
      congr 2
      rw [FFormat.emin]
      ring

/-! ### No elements -/

/-- The sum of one finite pattern is the pattern. -/
theorem finiteDot_pattern {f : FFormat} (hf : f.Usual) (rm : BitVec 3) (p : SumPlan) (freeSign neg : Bool)
    {k mant : Nat} {exp : Int} (hk : k < f.infBits) (hmant : mant < 2 ^ (f.fb + 1))
    (hx : (mant : ℚ) * 2 ^ exp = f.magnitude k) :
    finiteDot f rm p freeSign [⟨neg, mant, exp⟩] = (f.signBits neg + k, 0) := by
  have hpos : (0 : ℚ) < 2 ^ exp := by positivity
  have hnumber : (Term.mk neg mant exp).val.number = ((if neg then -mant else mant : Int) : ℚ) * 2 ^ exp := by
    cases neg <;> simp [Term.val, FVal.number]
  have hunit : ∀ t ∈ [Term.mk neg mant exp], ∃ n : Int, t.val.number = n * (2 : ℚ) ^ exp := by
    simpa using ⟨_, hnumber⟩
  have hwidth : ([Term.mk neg mant exp].map fun t => |t.val.number|).sum ≤ (2 : ℚ) ^ (exp + f.fb + 1) := by
    have hle : (mant : ℚ) ≤ ((2 ^ (f.fb + 1) : Nat) : ℚ) := Nat.cast_le.2 hmant.le
    have habs : |(Term.mk neg mant exp).val.number| = mant * 2 ^ exp := by
      rw [hnumber, abs_mul, abs_of_pos hpos]
      cases neg <;> simp
    rw [List.map_singleton, List.sum_singleton, habs, add_assoc, add_comm exp, zpow_add₀ two_ne_zero]
    exact mul_le_mul_of_nonneg_right (by exact_mod_cast hle) hpos.le
  have hsum : ([Term.mk neg mant exp].map fun t => t.val.number).sum =
      ((if neg then -mant else mant : Int) : ℚ) * 2 ^ exp := by simpa using hnumber
  rcases Nat.eq_zero_or_pos mant with rfl | hm
  · have hk0 : k = 0 := by
      have hzero : f.magnitude 0 = 0 := by simp [FFormat.magnitude]
      refine f.magnitude_strictMono.injective ?_
      rw [← hx, hzero, Nat.cast_zero, zero_mul]
    rw [finiteDot_exact_zero rm p hunit hwidth hsum freeSign (by simp), hk0]
    cases neg <;> simp [zeroSign]
  · rw [finiteDot_exact rm p hunit hwidth hsum freeSign (by split <;> omega)]
    have hsign : decide ((if neg then -mant else mant : Int) < 0) = neg := by cases neg <;> simp [hm]
    have habs : (if neg then -mant else mant : Int).natAbs = mant := by cases neg <;> simp
    rw [habs, hsign]
    exact hf.round_magnitude rm neg hm hk hx

/-- The terms of the dot product of no elements. -/
theorem dotTerms_nil (op : FloatOp) (c : Word) (b : List Word) (bf : Bool) :
    dotTerms op c [] b bf = [(floatFormats op bf).2.unpack c.toNat] := by simp [dotTerms]

/-- The dot product of no elements is the accumulator, or the canonical NaN. -/
theorem dotOut_nil (op : FloatOp) {c : Word} (b : List Word) (rm : BitVec 3) (bf : Bool)
    (hc : c.toNat < 2 ^ (1 + (floatFormats op bf).2.eb + (floatFormats op bf).2.fb)) :
    ((floatFormats op bf).2.unpack c.toNat = .nan →
      (dotOut op c [] b rm bf).1 = (floatFormats op bf).2.nanBits) ∧
    ((floatFormats op bf).2.unpack c.toNat ≠ .nan → dotOut op c [] b rm bf = (c.toNat, 0)) := by
  have hnan : dotAnyNan op c [] b bf = true ↔ (floatFormats op bf).2.unpack c.toNat = .nan := by
    simp [dotAnyNan, FVal.isNan_iff]
  have hinv : ¬dotIsInvalid op c [] b bf = true := by
    simp only [dotIsInvalid, dotTerms_nil]
    cases (floatFormats op bf).2.unpack c.toNat <;> simp
  refine ⟨fun h => by rw [dotOut_of_nan rm (hnan.2 h)], fun h => ?_⟩
  have hn := hnan.not.2 h
  obtain ⟨neg, k, hk, hpattern⟩ := (floatFormats op bf).2.exists_sign hc
  rcases (floatFormats op bf).2.unpack_pattern neg hk with ⟨-, hval⟩ | ⟨hinf, hval⟩ |
    ⟨hlt, mant, exp, hval, hmant, hx⟩
  · exact absurd (hpattern ▸ hval) h
  · rw [dotOut_of_inf rm (neg := neg) hn hinv (by rw [dotTerms_nil, hpattern, hval]; simp), hpattern, hinf]
  · have hterms : dotTerms op c [] b bf = [.fin neg mant exp] := by rw [dotTerms_nil, hpattern, hval]
    rw [dotOut_of_finite rm hn hinv (by simp [hterms]), hterms, hpattern]
    exact finiteDot_pattern (floatFormats_usual op bf) rm _ _ neg hlt hmant hx

/-! ### Finite terms -/

/-- A product with a NaN factor is NaN. -/
theorem FVal.mul_nan {x y : FVal} (h : x = .nan ∨ y = .nan) : x.mul y = .nan := by
  rcases h with rfl | rfl
  · rfl
  · cases x <;> rfl

/-- The dot product of finite terms is their sum. -/
theorem dotOut_of_forall_finite {op : FloatOp} {c : Word} {a b : List Word} (rm : BitVec 3) {bf : Bool}
    (h : ∀ t ∈ dotTerms op c a b bf, ∃ neg mant exp, t = .fin neg mant exp) :
    dotOut op c a b rm bf = finiteDot (floatFormats op bf).2 rm (Config.fdotPlan op c a b rm bf)
      (Config.fdotZeroNegative op c a b rm bf) (finiteTerms (dotTerms op c a b bf)) := by
  have hnan : .nan ∉ dotTerms op c a b bf := fun hmem => by
    obtain ⟨_, _, _, heq⟩ := h _ hmem
    cases heq
  have hinf : ∀ neg, .inf neg ∉ dotTerms op c a b bf := fun neg hmem => by
    obtain ⟨_, _, _, heq⟩ := h _ hmem
    cases heq
  have hprod : ∀ p ∈ a.zip b,
      ((floatFormats op bf).1.unpack p.1.toNat).mul ((floatFormats op bf).1.unpack p.2.toNat) ≠ .nan :=
    fun p hp heq => hnan (List.mem_cons_of_mem _ (List.mem_map.2 ⟨p, hp, heq⟩))
  have hacc : (floatFormats op bf).2.unpack c.toNat ≠ .nan := fun heq => hnan (heq ▸ List.mem_cons_self ..)
  refine dotOut_of_finite rm (fun hany => ?_) (fun hany => ?_) hinf
  · simp only [dotAnyNan, List.any_map, Bool.or_eq_true, List.any_eq_true, Function.comp, FVal.isNan_iff] at hany
    rcases hany with heq | ⟨p, hp, heq⟩
    · exact hacc heq
    · exact hprod p hp (FVal.mul_nan heq)
  · rcases (dotIsInvalid_iff op c a b bf).1 hany with ⟨p, hp, -, -, heq⟩ | ⟨hmem, -⟩
    · exact hprod p hp heq
    · exact hinf false hmem

/-- Settles O45: no elements by the value of the accumulator's pattern, finite terms by the sum that they are added
to. (`finiteDot` is the model's own name.) -/
theorem finiteDot_holds : Obligations.FiniteDot := by
  intro op c a b rm bf hlen src acc terms r
  have hf : acc.Usual := floatFormats_usual op bf
  have hr : (r.1.toNat, r.2) = dotOut op c a b rm bf := fdot_toNat op c a b rm bf
  refine ⟨?_, fun hfin => ?_⟩
  · rintro rfl hc
    obtain ⟨hnan, hother⟩ := dotOut_nil op b rm bf hc
    refine ⟨fun h => (congrArg Prod.fst hr).trans (hnan h), fun h => ?_⟩
    obtain ⟨hbits, hflags⟩ := Prod.ext_iff.1 (hr.trans (hother h))
    exact Prod.ext (BitVec.eq_of_toNat_eq hbits) hflags
  rw [dotOut_of_forall_finite rm hfin] at hr
  obtain ⟨ts, hts, hterms⟩ : ∃ ts, finiteTerms terms = ts ∧ terms = ts.map Term.val :=
    ⟨_, rfl, (map_val_finiteTerms hfin).symm⟩
  rw [show finiteTerms (dotTerms op c a b bf) = ts from hts] at hr
  generalize Config.fdotPlan op c a b rm bf = p, Config.fdotZeroNegative op c a b rm bf = freeSign at hr
  have hbits : r.1.toNat = (finiteDot acc rm p freeSign ts).1 := congrArg Prod.fst hr
  have hflags : r.2 = (finiteDot acc rm p freeSign ts).2 := congrArg Prod.snd hr
  have hexists : (∃ t ∈ ts.map Term.val, t.number ≠ 0) ↔ ∃ t ∈ ts, t.val.number ≠ 0 := by simp
  simp only [hterms, List.forall_mem_map, List.map_map, Function.comp_def, hexists]
  obtain ⟨neg, hresult⟩ := finiteDot_result hf rm p freeSign ts
  refine ⟨fun e k hunit hwidth hsum => ⟨fun hk => ?_, fun hk => ?_⟩, fun hpos hne => ?_, fun hneg hne => ?_,
    fun before t after hsplit hzero hbig => ?_, hflags ▸ hresult.nv, hflags ▸ hresult.dz⟩
  · exact hr.trans (finiteDot_exact rm p hunit hwidth hsum freeSign hk)
  · rw [hbits, hflags, finiteDot_exact_zero rm p hunit hwidth hsum freeSign hk]
    refine ⟨?_, rfl⟩
    cases zeroSign freeSign ts
    · exact .inl rfl
    · exact .inr rfl
  · obtain ⟨k, hk, hpattern⟩ :=
      (finiteDot_oneSign hf rm p freeSign (.inl rfl) (by simpa using hpos) hne).pattern
    rw [hbits, hpattern]
    exact (Nat.zero_add k).trans_lt (hk.trans_lt acc.infBits_lt)
  · obtain ⟨k, -, hpattern⟩ :=
      (finiteDot_oneSign hf rm p freeSign (.inr rfl) (by simpa using hneg) hne).pattern
    rw [hbits, hpattern]
    exact Nat.le_add_right _ _
  · obtain ⟨before, rest, rfl, rfl, hrest⟩ := List.map_eq_append_iff.1 hsplit
    obtain ⟨u, after, rfl, rfl, rfl⟩ := List.map_eq_cons_iff.1 hrest
    have hu : u.val.number ≠ 0 := fun h0 => by
      rw [h0, abs_zero] at hbig
      exact absurd hbig (not_le.2 (by positivity))
    have hsingle := nonzeroTerms_of_single hu fun w hw => hzero _ (by
      rw [← List.map_append]
      exact List.mem_map_of_mem hw)
    rw [hbits, hflags, finiteDot_overflow hf rm p freeSign hsingle hbig]
    exact ⟨rfl, rfl⟩

end Sys2Proof.Machine
end

section
/-! Integer matrix multiplications that execute (family 41_matmul_int.md): the elements they compute, and what an
operation on a single accumulator register and one on a register pair leave. -/

namespace Sys2Proof.Machine

/-! ### The elements of the result -/

/-- The unsigned-by-signed forms: the signed operand is `B`, and `A` under `SU_ORDER = B_first` (decision D9). -/
theorem ofOperands_us (o : SuOrder) : Signs.us.ofOperands o = (o == .bFirst, o == .aFirst) := by
  cases o <;> rfl

/-- The signed-by-unsigned forms: the signed operand is `A`, and `B` under `SU_ORDER = B_first` (decision D9). -/
theorem ofOperands_su (o : SuOrder) : Signs.su.ofOperands o = (o == .aFirst, o == .bFirst) := by
  cases o <;> rfl

/-- The columns of bytes and of nibbles, counted by their bits. -/
theorem kElems_of_four_or_eight (s : State) {ws : Nat} (h : ws = 4 ∨ ws = 8) :
    s.kElems ws = s.sK * 8 / ws := by
  rcases h with rfl | rfl
  · rw [State.kElems, if_pos rfl]
    omega
  · rw [State.kElems, if_neg (by decide)]
    omega

/-- The columns of 16-bit elements. -/
theorem kElems_sixteen (s : State) : s.kElems 16 = s.sK / 2 := by
  rw [State.kElems, if_neg (by decide)]

/-- Reducing the exact sum to the accumulator's width is adding the reduced dot product to the accumulator:
the wrapping accumulation of R182. -/
theorem intAt_eq_add (s : State) (k : IntMulKind) {sa sb : SuOrder → Bool}
    (hsigns : ∀ o, k.signs.ofOperands o = (sa o, sb o)) (md ms2 ms1 : MIdx) :
    s.intAt k md ms2 ms1 = fun i j =>
      s.accGet k.acc k.wd md i j + BitVec.ofInt k.wd
        ((List.range (s.kElems k.ws)).map fun c =>
          intValue (sa s.cfg.suOrder) (s.el k.ws ms1 i c) *
            intValue (sb s.cfg.suOrder) (s.el k.ws ms2 j c)).sum := by
  funext i j
  rw [State.intAt, BitVec.ofInt_add, BitVec.ofInt_toInt, State.intDot, hsigns]

/-! ### Completion -/

/-- An integer matrix multiplication whose checks pass writes the group of its results and nothing else. -/
theorem intMul_runs {s : State} (word : BitVec 32) {k : IntMulKind} {md ms2 ms1 : MIdx}
    (hpass : ∀ c ∈ s.intChecks k md ms2 ms1, c.1 = false) :
    let result := s.accBuild k.acc k.wd (s.intAt k md ms2 ms1)
    ∃ t, s.intMul word k md ms2 ms1 = .next t ∧ Rewrites s t (regGroup md result.length) ∧
      SatKept s t ∧ FloatKept s t ∧ t.cfg = s.cfg ∧ t.m = (s.setGroup md result).m := by
  intro result
  have hrewrites := rewrites_setGroup s md result
  exact ⟨_, guard_of_pass s word _ hpass, hrewrites, by simp [SatKept], by simp [FloatKept, State.finish],
    hrewrites.host.cfg, rfl⟩

/-- An instruction that is a multiplication with a single accumulator register of 32-bit elements, over columns of
4 or 8 bits, completes. -/
theorem intMulCompletes_of_exec {signs : Signs} {ws bit : Nat} {instr : MIdx → MIdx → MIdx → Instr}
    {sa sb : SuOrder → Bool} (hws : ws = 4 ∨ ws = 8)
    (hsigns : ∀ o, signs.ofOperands o = (sa o, sb o))
    (hexec : ∀ md ms2 ms1 s, exec (instr md ms2 ms1) s =
      s.intMul (encode (instr md ms2 ms1)) { signs, ws, wd := 32, acc := .single, bit } md ms2 ms1) :
    IntMulCompletes ws bit instr sa sb := by
  intro s md ms2 ms1 hr hb h1 h2 hv
  have hdisj : disjointRegs [md] [ms1, ms2] = true := disjointRegs_of_forall (by simp [h1, h2])
  have hregs : ∀ c ∈ accRegsOk .single md ms2 ms1, c.1 = false := by simp [accRegsOk, hdisj]
  obtain ⟨t, hnext, hrewrites, hsat, hfloat, hcfg, hm⟩ :=
    intMul_runs (k := { signs, ws, wd := 32, acc := .single, bit }) (encode (instr md ms2 ms1))
      (intChecks_pass hr hb hregs hv)
  have hholds := holds_of_accBuild_single hcfg (Nat.zero_lt_succ 31) hm
  rw [intAt_eq_add s _ hsigns, kElems_of_four_or_eight s hws] at hholds
  exact ⟨t, (hexec md ms2 ms1 s).trans hnext, regGroup_one md ▸ hrewrites, hsat, hfloat, hholds⟩

/-- An instruction that is a multiplication of 16-bit elements with an accumulator pair completes. -/
theorem intMulPairCompletes_of_exec {signs : Signs} {instr : MIdx → MIdx → MIdx → Instr}
    {sa sb : SuOrder → Bool} (hsigns : ∀ o, signs.ofOperands o = (sa o, sb o))
    (hexec : ∀ md ms2 ms1 s, exec (instr md ms2 ms1) s =
      s.intMul (encode (instr md ms2 ms1)) { signs, ws := 16, wd := 64, acc := .pair, bit := 2 }
        md ms2 ms1) :
    IntMulPairCompletes instr sa sb := by
  intro s md ms2 ms1 hr hb heven h1 h2 h3 h4 hv
  have hdisj : disjointRegs [md, md + 1#3] [ms1, ms2] = true :=
    disjointRegs_of_forall (by simp [h1, h2, h3, h4])
  have hregs : ∀ c ∈ accRegsOk .pair md ms2 ms1, c.1 = false := by
    simp [accRegsOk, hdisj, pairOk_of_even heven]
  obtain ⟨t, hnext, hrewrites, hsat, hfloat, hcfg, hm⟩ :=
    intMul_runs (k := { signs, ws := 16, wd := 64, acc := .pair, bit := 2 }) (encode (instr md ms2 ms1))
      (intChecks_pass hr hb hregs hv)
  have hholds := holds_of_accBuild_pair hcfg hm
  rw [intAt_eq_add s _ hsigns, kElems_sixteen] at hholds
  exact ⟨t, (hexec md ms2 ms1 s).trans hnext, regGroup_two md ▸ hrewrites, hsat, hfloat, hholds⟩

/-! ### The statements -/

/-- Settles O38: each form is a multiplication with a single accumulator, and the four differ in their signs alone. -/
theorem mmaqaByteCompletes : Obligations.MmaqaByteCompletes :=
  ⟨intMulCompletes_of_exec (.inr rfl) (fun _ => rfl) fun _ _ _ _ => rfl,
    intMulCompletes_of_exec (.inr rfl) (fun _ => rfl) fun _ _ _ _ => rfl,
    intMulCompletes_of_exec (.inr rfl) ofOperands_us fun _ _ _ _ => rfl,
    intMulCompletes_of_exec (.inr rfl) ofOperands_su fun _ _ _ _ => rfl⟩

/-- Settles O39: as the 8-bit forms, over columns of nibbles. -/
theorem pmmaqaCompletes : Obligations.PmmaqaCompletes :=
  ⟨intMulCompletes_of_exec (.inl rfl) (fun _ => rfl) fun _ _ _ _ => rfl,
    intMulCompletes_of_exec (.inl rfl) (fun _ => rfl) fun _ _ _ _ => rfl,
    intMulCompletes_of_exec (.inl rfl) ofOperands_us fun _ _ _ _ => rfl,
    intMulCompletes_of_exec (.inl rfl) ofOperands_su fun _ _ _ _ => rfl⟩

/-- Settles O40: each form is a multiplication with an accumulator pair, and the four differ in their signs alone. -/
theorem mmaqaHalfCompletes : Obligations.MmaqaHalfCompletes :=
  ⟨intMulPairCompletes_of_exec (fun _ => rfl) fun _ _ _ _ => rfl,
    intMulPairCompletes_of_exec (fun _ => rfl) fun _ _ _ _ => rfl,
    intMulPairCompletes_of_exec ofOperands_us fun _ _ _ _ => rfl,
    intMulPairCompletes_of_exec ofOperands_su fun _ _ _ _ => rfl⟩

end Sys2Proof.Machine
end

section
/-! Loads and stores (family 42_load_store.md): their RESERVED operands, the ones that complete, the ones that trap in
a row, and the resumption of a trapped one. -/

namespace Sys2Proof.Machine

/-! ### RESERVED operands -/

/-- A normal or stream form is guarded by the checks of its element. -/
theorem exec_shaped_eq_guard (s : State) (r : MIdx) (rs2 rs1 : XIdx) :
    ∀ p ∈ shapedLoads r rs2 rs1 ++ shapedStores r rs2 rs1,
      ∃ go, exec p.1 s = s.guard (encode p.1) (s.shapedChecks p.2) go := by
  intro p hp
  rcases List.mem_append.1 hp with hp | hp <;> fin_cases hp <;> exact ⟨_, rfl⟩

/-- A whole-register form is guarded by the checks of its register count. -/
theorem exec_whole_eq_guard (s : State) (r : MIdx) (rs1 : XIdx) :
    ∀ p ∈ wholeLoads r rs1 ++ wholeStores r rs1,
      ∃ go, exec p.1 s = s.guard (encode p.1) (s.wholeChecks p.2.1 r) go := by
  intro p hp
  rcases List.mem_append.1 hp with hp | hp <;> fin_cases hp <;> exact ⟨_, rfl⟩

/-- A non-zero `xmrstart` at or past the rows of a transfer fails its check. -/
theorem startOk_eq_false {s : State} {rows : Nat} (h : s.xmrstart ≠ 0) (hrows : rows ≤ s.xmrstart.toNat) :
    s.startOk rows = false := by
  rw [← Bool.not_eq_true, startOk_iff]
  rintro (h0 | hlt)
  · exact h h0
  · omega

section Reserved

variable {s : State} (hms : s.mstatus.ms ≠ 0#2) (hpolicy : s.cfg.reservedPolicy = .refuse)

include hms

/-- The gate of `MS` passes when the unit is on. -/
theorem offGate_pass : s.offGate.1 = false := by simpa [State.offGate] using hms

include hpolicy

/-- The first operand of a transfer is not in order. -/
theorem guard_refused_first (word : BitVec 32) {ok : Bool} {why : Reserved} (rest : List (Bool × Stop))
    (go : Host.Outcome State Fault Refusal) (hok : ok = false) :
    s.guard word (s.offGate :: needs ok why :: rest) go = .refused (.reserved why) :=
  guard_refused word (gates := [s.offGate]) rest go hpolicy (by simpa using offGate_pass hms) hok

/-- The first operand of a transfer is in order, and `xmrstart` lies past its rows. -/
theorem guard_refused_startRow (word : BitVec 32) {ok : Bool} {why : Reserved} {rows : Nat}
    (go : Host.Outcome State Fault Refusal) (hok : ok = true) (h : s.xmrstart ≠ 0)
    (hrows : rows ≤ s.xmrstart.toNat) :
    s.guard word [s.offGate, needs ok why, needs (s.startOk rows) .startRow] go =
      .refused (.reserved .startRow) :=
  guard_refused word (gates := [s.offGate, needs ok why]) [] go hpolicy
    (by simp [offGate_pass hms, hok]) (startOk_eq_false h hrows)

end Reserved

/-- Settles O27: the gate of `MS` passes, so the check of the shape or of the register number fires, or where it
passes that of `xmrstart`. -/
theorem transferReserved : Obligations.TransferReserved := by
  intro s r rs2 rs1 hms hpolicy
  refine ⟨fun p hp => ?_, fun p hp => ?_⟩
  · obtain ⟨go, hexec⟩ := exec_shaped_eq_guard s r rs2 rs1 p hp
    have hesize : 8 * p.2 / 8 = p.2 := by omega
    refine ⟨fun hshape => ?_, fun hshape hstart hrows => ?_⟩
    · have hinvalid : s.validPW (8 * p.2) = false := by rwa [validPW_eq_false, hesize, or_assoc]
      exact hexec.trans (guard_refused_first hms hpolicy _ _ go hinvalid)
    · exact hexec.trans (guard_refused_startRow hms hpolicy _ go hshape hstart hrows)
  · obtain ⟨go, hexec⟩ := exec_whole_eq_guard s r rs1 p hp
    refine ⟨fun hreg => ?_, fun hreg hstart hrows => ?_⟩
    · exact hexec.trans (guard_refused_first hms hpolicy _ _ go (beq_eq_false_iff_ne.2 hreg))
    · exact hexec.trans (guard_refused_startRow hms hpolicy _ go (beq_iff_eq.2 hreg) hstart hrows)

/-! ### Transfers that complete -/

/-- Settles O47: the checks pass, and the accesses reach memory. -/
theorem loadsComplete : Obligations.LoadsComplete := fun _ _ _ _ hms p hp hshape hstart hreach =>
  loadCompletes_of_reachable (exec_shapedLoads hms hstart p hp hshape) (by decide) hreach

/-- Settles O48: the checks pass, and the accesses reach memory. -/
theorem wholeLoadsComplete : Obligations.WholeLoadsComplete := fun _ md rs1 hms p hp hreg hstart hreach =>
  loadCompletes_of_reachable (exec_wholeLoads hms p hp hreg hstart) ((esize_whole md rs1).1 p hp).1 hreach

/-- Settles O49: the checks pass, and the accesses reach memory. -/
theorem storesComplete : Obligations.StoresComplete := fun _ _ _ _ hwf hms p hp hshape hstart hreach =>
  storeCompletes_of_reachable (exec_shapedStores hms hstart p hp hshape) hwf hreach

/-- Settles O50: the checks pass, and the accesses reach memory. -/
theorem wholeStoresComplete : Obligations.WholeStoresComplete := fun _ _ _ hwf hms p hp hreg hstart hreach =>
  storeCompletes_of_reachable (exec_wholeStores hms p hp hreg hstart) hwf hreach

/-! ### Rows of a transfer -/

/-- The rows of a normal or stream transfer are counted by 8 bits. -/
theorem shaped_rows_lt (s : State) (esize : Nat) (rs1 rs2 : XIdx) : (s.shaped esize rs1 rs2).rows < 2 ^ 64 :=
  s.sizeM.isLt.trans (by decide)

/-- At most 8 registers have at most 16 rows each. -/
theorem whole_rows_lt (s : State) {n : Nat} (esize : Nat) (rs1 : XIdx) (hn : n ≤ 8) :
    (s.whole n esize rs1).rows < 2 ^ 64 :=
  (Nat.mul_le_mul hn (Config.rows_bounds s.cfg).2.1).trans_lt (by decide)

/-- Row `q` of register `k`, counted through a group. -/
theorem group_index {rows q : Nat} (k : Nat) (hq : q < rows) :
    (k * rows + q) / rows = k ∧ (k * rows + q) % rows = q := by
  rw [Nat.mul_comm, Nat.mul_add_div (by omega), Nat.mul_add_mod, Nat.div_eq_of_lt hq, Nat.mod_eq_of_lt hq]
  exact ⟨rfl, rfl⟩

/-- Where a group of registers has been written, its rows are the given ones. -/
theorem mrow_of_setGroup {s u : State} {md : MIdx} {l : List MReg} {k : Nat} (hcfg : u.cfg = s.cfg)
    (hm : u.m = (s.setGroup md l).m) (hk : k < l.length) (hl : l.length ≤ 8) (q : Nat) :
    u.mrow (md + BitVec.ofNat 3 k) q = truncRow s.cfg.mlen (l[k].getD q 0) := by
  simp only [State.mrow, hcfg, hm, setGroup_get s md hk hl]

/-- Where a group has been built from its rows and written, its elements are those of the rows. -/
theorem el_of_setGroup_groupOf {s u : State} {md : MIdx} {n k q : Nat} {f : Nat → Row} (hcfg : u.cfg = s.cfg)
    (hm : u.m = (s.setGroup md (s.groupOf n f)).m) (hn : n ≤ 8) (hk : k < n) (hq : q < s.cfg.rows) (w b : Nat) :
    u.el w (md + BitVec.ofNat 3 k) q b = elem w (truncRow s.cfg.mlen (f (k * s.cfg.rows + q))) b := by
  have hlen : (s.groupOf n f).length = n := by simp [State.groupOf]
  rw [State.el, mrow_of_setGroup hcfg hm (hlen.symm ▸ hk) (hlen.symm ▸ hn),
    groupOf_row s f (hlen.symm ▸ hk) hq, truncRow_truncRow]

/-! ### Transfers that trap in a row -/

/-- What every trap of a row gives, taken after a part `v` of the transfer that keeps `pc` and the host state. -/
theorem rowTrap_report {s v : State} (hk : HostKept s v) (hpc : v.pc = s.pc) {store : Bool} {t : Transfer} {row : Nat}
    {reports : List (Exc × Nat)} (hrows : t.rows < 2 ^ 64) (h : s.trouble store t = some (.faults row reports)) :
    ∃ r ∈ reports, TrapTaken s (v.rowTrap row reports) r.1 (BitVec.ofNat 64 r.2) ∧
      (v.rowTrap row reports).xmrstart.toNat = row ∧ (v.rowTrap row reports).mstatus.ms = 3#2 ∧
      (v.rowTrap row reports).x = s.x := by
  obtain ⟨-, hrow, -, hne, -, -⟩ := trouble_faults h
  obtain ⟨r, hr, htaken⟩ := trapTaken_rowTrap_report hk hpc row hne
  obtain ⟨-, hx, -, hxm, -, -, -, -, -, -, hms, -⟩ := rowTrap_kept v row reports
  refine ⟨r, hr, htaken, ?_, hms, hx.trans hk.x⟩
  rw [hxm, BitVec.toNat_ofNat, Nat.mod_eq_of_lt (hrow.trans hrows)]

/-- A load that traps in a row. -/
theorem load_traps {i : Instr} {s : State} {md : MIdx} {n : Nat} {t : Transfer} {word : BitVec 32} {row : Nat}
    {reports : List (Exc × Nat)} (hexec : exec i s = s.runLoad word t n md) (hn : n ≤ 8) (hrows : t.rows < 2 ^ 64)
    (h : s.trouble false t = some (.faults row reports)) :
    ∃ u r, exec i s = .next u ∧ r ∈ reports ∧
      TrapTaken s u r.1 (BitVec.ofNat 64 r.2) ∧ u.xmrstart.toNat = row ∧ u.mstatus.ms = 3#2 ∧
      u.x = s.x ∧ u.mem = s.mem ∧ SizesKept s u ∧ RegsKept s u (regGroup md n) ∧
      ∀ k q b, k < n → q < s.cfg.rows → k * s.cfg.rows + q < row → b < s.cfg.mlenb →
        u.el 8 (md + BitVec.ofNat 3 k) q b =
          if k * s.cfg.rows + q < s.xmrstart.toNat then s.el 8 (md + BitVec.ofNat 3 k) q b
          else if b < t.rowBytes then s.byteAt (t.addr (k * s.cfg.rows + q) b) else 0 := by
  obtain ⟨-, hrow, -, -, -, -⟩ := trouble_faults h
  obtain ⟨r, hr, htaken, hxm, hms, hx⟩ :=
    rowTrap_report (hostKept_loadPart s t n md row) (State.setGroup_pc ..) hrows h
  obtain ⟨hcfg, -, hm, -, -, -, -, -, -, -, -, -, hmem, -⟩ := rowTrap_kept (s.loadPart t n md row) row reports
  have hsizes := ((flagsAndSizesKept_loadPart s t n md row).rowTrap row reports).sizes
  refine ⟨_, r, by rw [hexec, State.runLoad, h], hr, htaken, hxm, hms, hx, hmem.trans (State.setGroup_mem ..),
    hsizes, fun q hq => ?_, fun k q b hk hq hlt hb => ?_⟩
  · simp only [hm]
    exact setGroup_get_of_notMem s (by simpa [State.groupOf] using hq)
  · rw [el_of_setGroup_groupOf (hcfg.trans (State.setGroup_cfg ..)) hm hn hk hq, if_pos hlt,
      byte_loadedRow s t md hq hb]
    simp only [hlt.trans hrow, true_and]

/-- Settles O51: the checks pass, and the transfer traps in a row. -/
theorem loadTraps : Obligations.LoadTraps := by
  intro s md rs2 rs1 row reports hms traps
  refine ⟨fun p hp hshape hstart h => ?_, fun p hp hreg hstart h => ?_⟩
  · exact load_traps (exec_shapedLoads hms hstart p hp hshape) (by decide) (shaped_rows_lt ..) h
  · have hn := ((esize_whole md rs1).1 p hp).1
    exact load_traps (exec_wholeLoads hms p hp hreg hstart) hn (whole_rows_lt _ _ _ hn) h

/-- The bytes that a store which traps in a row has written or may have written are bytes of its rows. -/
theorem mem_storePart_cells {s : State} {t : Transfer} {ms3 : MIdx} {row : Nat} {w : Host.Cell}
    (hlo : s.xmrstart.toNat ≤ row) (hhi : row ≤ t.rows)
    (h : w ∈ State.cellsOf (s.rowCells t ms3) s.xmrstart.toNat row ++
      State.cellsOf (s.rowMaybe t ms3) row t.rows) :
    ∃ q c, s.xmrstart.toNat ≤ q ∧ q < t.rows ∧ c < t.rowBytes ∧
      w = (t.addr q c, elem 8 (s.groupRow ms3 q) c) := by
  rcases List.mem_append.1 h with h | h <;> obtain ⟨q, h1, h2, hw⟩ := mem_cellsOf.1 h
  · obtain ⟨c, hc, rfl⟩ := mem_rowCells.1 hw
    exact ⟨q, c, h1, by omega, hc, rfl⟩
  · obtain ⟨c, hc, rfl⟩ := mem_rowMaybe hw
    exact ⟨q, c, by omega, h2, hc, rfl⟩

/-- A store that traps in a row. -/
theorem store_traps {i : Instr} {s : State} {ms3 : MIdx} {t : Transfer} {word : BitVec 32} {row : Nat}
    {reports : List (Exc × Nat)} (hexec : exec i s = s.runStore word t ms3) (hwf : s.mem.wf = true)
    (hrows : t.rows < 2 ^ 64) (h : s.trouble true t = some (.faults row reports)) :
    ∃ u r, exec i s = .next u ∧ r ∈ reports ∧
      TrapTaken s u r.1 (BitVec.ofNat 64 r.2) ∧ u.xmrstart.toNat = row ∧ u.mstatus.ms = 3#2 ∧
      u.x = s.x ∧ u.m = s.m ∧ SizesKept s u ∧
      (∀ a, (∀ q c, s.xmrstart.toNat ≤ q → q < t.rows → c < t.rowBytes → t.addr q c ≠ a) →
        u.byteAt a = s.byteAt a) ∧
      ∀ q c, s.xmrstart.toNat ≤ q → q < row → c < t.rowBytes →
        (∀ q' c', s.xmrstart.toNat ≤ q' → q' < t.rows → c' < t.rowBytes → t.addr q' c' = t.addr q c →
          elem 8 (s.groupRow ms3 q') c' = elem 8 (s.groupRow ms3 q) c) →
        u.byteAt (t.addr q c) = elem 8 (s.groupRow ms3 q) c := by
  obtain ⟨hlo, hhi, -, -, -, -⟩ := trouble_faults h
  obtain ⟨r, hr, htaken, hxm, hms, hx⟩ :=
    rowTrap_report (v := s.storePart t ms3 row) (hostKept_storeBytes s _ _) rfl hrows h
  obtain ⟨-, -, hm, -, -, -, -, -, -, -, -, -, hmem, -⟩ := rowTrap_kept (s.storePart t ms3 row) row reports
  have hbyte : ∀ a, ((s.storePart t ms3 row).rowTrap row reports).byteAt a = (s.storePart t ms3 row).byteAt a :=
    fun a => congrArg (Memory.read · a) hmem
  have hsizes : SizesKept s ((s.storePart t ms3 row).rowTrap row reports) :=
    ((flagsAndSizesKept_storeBytes s _ _).rowTrap row reports).sizes
  refine ⟨_, r, by rw [hexec, State.runStore, h], hr, htaken, hxm, hms, hx, hm, hsizes,
    fun a ha => ?_, fun q c hq hqrow hc hsame => ?_⟩
  · rw [hbyte]
    refine byteAt_storeBytes_of_notMem s fun w hw e => ?_
    obtain ⟨q, c, hq, hqt, hc, rfl⟩ := mem_storePart_cells hlo hhi.le hw
    exact ha q c hq hqt hc e
  · have hsure : (t.addr q c, elem 8 (s.groupRow ms3 q) c) ∈
        State.cellsOf (s.rowCells t ms3) s.xmrstart.toNat row :=
      mem_cellsOf.2 ⟨q, hq, hqrow, mem_rowCells.2 ⟨c, hc, rfl⟩⟩
    have hvalue := byteAt_storeBytes_of_mem hwf (maybe := State.cellsOf (s.rowMaybe t ms3) row t.rows)
      ⟨_, List.mem_append_left _ hsure, rfl⟩
    obtain ⟨q', c', hq', hqt', hc', heq⟩ :=
      mem_storePart_cells hlo hhi.le (mem_of_byteOptions hvalue ⟨_, hsure, rfl⟩)
    obtain ⟨haddr, hbyte'⟩ := Prod.mk.inj heq
    exact (hbyte _).trans (hbyte'.trans (hsame q' c' hq' hqt' hc' haddr.symm))

/-- Settles O52: the checks pass, and the transfer traps in a row. -/
theorem storeTraps : Obligations.StoreTraps := by
  intro s ms3 rs2 rs1 row reports hwf hms traps
  refine ⟨fun p hp hshape hstart h => ?_, fun p hp hreg hstart h => ?_⟩
  · exact store_traps (exec_shapedStores hms hstart p hp hshape) hwf (shaped_rows_lt ..) h
  · exact store_traps (exec_wholeStores hms p hp hreg hstart) hwf
      (whole_rows_lt _ _ _ ((esize_whole ms3 rs1).2 p hp).1) h

/-! ### States of a resumed transfer -/

/-- What an access meets depends on the host state alone. -/
theorem HostKept.reach {s u : State} (hk : HostKept s u) (store : Bool) (a : Nat) :
    u.reach store a = s.reach store a := by
  have hpriv : u.dataPriv = s.dataPriv := by rw [State.dataPriv, hk.mstatus, hk.priv]; rfl
  rw [State.reach, State.reach, State.readReach, State.writeReach, hk.cfg, hpriv]
  rfl

/-- Integer registers read alike. -/
theorem HostKept.xval {s u : State} (hk : HostKept s u) (i : XIdx) : u.xval i = s.xval i := by
  simp only [State.xval, hk.cfg, hk.x]

/-- A normal or stream transfer depends on the host state and the sizes alone. -/
theorem HostKept.shaped {s u : State} (hk : HostKept s u) (hsizes : SizesKept s u) (esize : Nat) (rs1 rs2 : XIdx) :
    u.shaped esize rs1 rs2 = s.shaped esize rs1 rs2 := by
  obtain ⟨hM, -, hK⟩ := hsizes
  have haddr : u.ea rs1 rs2 = s.ea rs1 rs2 := by
    funext q c
    simp only [State.ea, hk.xval, hk.cfg]
  simp only [State.shaped, State.sM, State.sK, hM, hK, haddr]

/-- A whole-register transfer depends on the host state alone. -/
theorem HostKept.whole {s u : State} (hk : HostKept s u) (n esize : Nat) (rs1 : XIdx) :
    u.whole n esize rs1 = s.whole n esize rs1 := by
  have haddr : u.wholeEa rs1 = s.wholeEa rs1 := by
    funext q c
    simp only [State.wholeEa, hk.xval, hk.cfg]
  simp only [State.whole, hk.cfg, haddr]

/-- A state in which a transfer of `s` may be resumed at row `n`: it differs from `s` in the matrix registers, in
memory and in `xmrstart`, which holds `n`. -/
structure ResumesAt (s u : State) (n : Nat) : Prop where
  host : HostKept s u
  ms : u.mstatus.ms = s.mstatus.ms
  sizes : SizesKept s u
  start : u.xmrstart.toNat = n

namespace ResumesAt

variable {s u : State} {n : Nat} (h : ResumesAt s u n)

include h

/-- `MS` is on where it was. -/
theorem on (hms : s.mstatus.ms ≠ 0#2) : u.mstatus.ms ≠ 0#2 := h.ms ▸ hms

/-- `xmrstart` names a row. -/
theorem startsIn {rows : Nat} (hn : n < rows) : u.startsIn rows := .inr (h.start.trans_lt hn)

/-- The shape is as valid as before. -/
theorem validPW {w : Nat} (hv : s.validPW w = true) : u.validPW w = true := by
  obtain ⟨hM, -, hK⟩ := h.sizes
  rw [State.validPW, State.sM, State.sK, hM, hK, h.host.cfg]
  exact hv

/-- The rows that are left reach memory if all do. -/
theorem reachable {store : Bool} {t : Transfer} (h0 : s.xmrstart = 0) (hr : s.reachable store t) :
    u.reachable store t := by
  intro q k _ hq hk
  obtain ⟨ha, hb⟩ := hr q k (by simp [h0]) hq hk
  exact ⟨h.host.cfg ▸ ha, fun b hlt => (h.host.reach store _).trans (hb b hlt)⟩

/-- A normal or stream load runs what is left of its transfer. -/
theorem exec_shapedLoads {r : MIdx} {rs2 rs1 : XIdx} (hms : s.mstatus.ms ≠ 0#2) (hn : n < s.sM) :
    ∀ p ∈ shapedLoads r rs2 rs1, s.validPW (8 * p.2) = true →
      exec p.1 u = u.runLoad (encode p.1) (s.shaped p.2 rs1 rs2) 1 r := by
  intro p hp hv
  obtain ⟨hM, -, -⟩ := h.sizes
  rw [← h.host.shaped h.sizes]
  exact Machine.exec_shapedLoads (h.on hms) (h.startsIn (by rwa [State.sM, hM])) p hp (h.validPW hv)

/-- A whole-register load runs what is left of its transfer. -/
theorem exec_wholeLoads {r : MIdx} {rs1 : XIdx} (hms : s.mstatus.ms ≠ 0#2) :
    ∀ p ∈ wholeLoads r rs1, r.toNat % p.2.1 = 0 → n < p.2.1 * s.cfg.rows →
      exec p.1 u = u.runLoad (encode p.1) (s.whole p.2.1 p.2.2 rs1) p.2.1 r := by
  intro p hp hreg hn
  rw [← h.host.whole]
  exact Machine.exec_wholeLoads (h.on hms) p hp hreg (h.startsIn (by rwa [h.host.cfg]))

/-- A normal or stream store runs what is left of its transfer. -/
theorem exec_shapedStores {r : MIdx} {rs2 rs1 : XIdx} (hms : s.mstatus.ms ≠ 0#2) (hn : n < s.sM) :
    ∀ p ∈ shapedStores r rs2 rs1, s.validPW (8 * p.2) = true →
      exec p.1 u = u.runStore (encode p.1) (s.shaped p.2 rs1 rs2) r := by
  intro p hp hv
  obtain ⟨hM, -, -⟩ := h.sizes
  rw [← h.host.shaped h.sizes]
  exact Machine.exec_shapedStores (h.on hms) (h.startsIn (by rwa [State.sM, hM])) p hp (h.validPW hv)

/-- A whole-register store runs what is left of its transfer. -/
theorem exec_wholeStores {r : MIdx} {rs1 : XIdx} (hms : s.mstatus.ms ≠ 0#2) :
    ∀ p ∈ wholeStores r rs1, r.toNat % p.2.1 = 0 → n < p.2.1 * s.cfg.rows →
      exec p.1 u = u.runStore (encode p.1) (s.whole p.2.1 p.2.2 rs1) r := by
  intro p hp hreg hn
  rw [← h.host.whole]
  exact Machine.exec_wholeStores (h.on hms) p hp hreg (h.startsIn (by rwa [h.host.cfg]))

end ResumesAt

/-- A row number below the rows of a transfer is the word that holds it. -/
theorem toNat_row {n rows : Nat} (hn : n < rows) (hrows : rows < 2 ^ 64) : (BitVec.ofNat 64 n).toNat = n := by
  rw [BitVec.toNat_ofNat, Nat.mod_eq_of_lt (hn.trans hrows)]

/-! ### Resumed loads -/

/-- The state in which a load resumes at row `n`, with the registers `v` in its group. -/
def State.resumeLoad (s : State) (r : MIdx) (v : List MReg) (n : Nat) : State :=
  { s.setGroup r v with xmrstart := BitVec.ofNat 64 n }

/-- The state in which a load resumes differs in the matrix registers and `xmrstart`. -/
theorem resumesAt_resumeLoad (s : State) (r : MIdx) (v : List MReg) {n rows : Nat} (hn : n < rows)
    (hrows : rows < 2 ^ 64) : ResumesAt s (s.resumeLoad r v n) n where
  host := { hostKept_setGroup s r v with }
  ms := by simp [State.resumeLoad]
  sizes := by simp [SizesKept, State.resumeLoad]
  start := toNat_row hn hrows

/-- The rows below `n` of a transfer are loaded in the registers `v`, as a first attempt leaves them. -/
def State.RowsLoaded (s : State) (t : Transfer) (v : List MReg) (n : Nat) : Prop :=
  ∀ q c, q < n → c < s.cfg.mlenb →
    elem 8 ((v.getD (q / s.cfg.rows) []).getD (q % s.cfg.rows) 0) c =
      if c < t.rowBytes then s.byteAt (t.addr q c) else 0

/-- Matrix registers that agree one by one agree. -/
theorem m_ext {s u : State} (h : ∀ r : MIdx, u.m[r.toNat]'r.isLt = s.m[r.toNat]'r.isLt) : u.m = s.m :=
  Vector.ext fun k hk => by simpa [Nat.mod_eq_of_lt hk] using h (BitVec.ofNat 3 k)

/-- Writing a group changes the matrix registers alone. -/
theorem setGroup_eq (s : State) (r : MIdx) (l : List MReg) :
    s.setGroup r l = { s with m := (s.setGroup r l).m } := by
  induction l generalizing s r with
  | nil => rfl
  | cons v l ih => exact ih (s.setM r v) (r + 1#3)

/-- A group that is written over another of as many registers is all that is left of the two. -/
theorem setGroup_setGroup (s : State) (r : MIdx) {v l : List MReg} (hlen : v.length = l.length) (hl : l.length ≤ 8) :
    (s.setGroup r v).setGroup r l = s.setGroup r l := by
  have hm : ((s.setGroup r v).setGroup r l).m = (s.setGroup r l).m := by
    refine m_ext fun q => ?_
    by_cases hq : q ∈ regGroup r l.length
    · obtain ⟨k, hk, rfl⟩ := List.mem_map.1 hq
      rw [setGroup_get _ r (List.mem_range.1 hk) hl, setGroup_get _ r (List.mem_range.1 hk) hl]
    · rw [setGroup_get_of_notMem _ hq, setGroup_get_of_notMem _ hq, setGroup_get_of_notMem _ (hlen ▸ hq)]
  rw [setGroup_eq, hm, setGroup_eq s r v]
  exact (setGroup_eq s r l).symm

/-- Writing a group does not look at `xmrstart`. -/
theorem setGroup_withStart (s : State) (x : Word) (r : MIdx) (l : List MReg) :
    ({ s with xmrstart := x } : State).setGroup r l = { s.setGroup r l with xmrstart := x } := by
  induction l generalizing s r with
  | nil => rfl
  | cons v l ih => exact ih (s.setM r v) (r + 1#3)

/-- After the epilogue nothing is left of the group and the row at which a load resumed. -/
theorem finish_setGroup_resumeLoad (s : State) (r : MIdx) {v l : List MReg} (n : Nat) (hlen : v.length = l.length)
    (hl : l.length ≤ 8) : ((s.resumeLoad r v n).setGroup r l).finish = (s.setGroup r l).finish := by
  rw [State.resumeLoad, setGroup_withStart, setGroup_setGroup s r hlen hl]
  rfl

/-- Rows are the same if their bytes are. -/
theorem truncRow_eq_of_bytes {c : Config} {a b : Row}
    (h : ∀ k < c.mlenb, elem 8 (truncRow c.mlen a) k = elem 8 (truncRow c.mlen b) k) :
    truncRow c.mlen a = truncRow c.mlen b := by
  obtain ⟨-, -, hbits⟩ := Config.rows_bounds c
  refine BitVec.eq_of_getLsbD_eq fun i _ => ?_
  by_cases hi : i < c.mlen.bits
  · have hbyte := congrArg (BitVec.getLsbD · (i % 8)) (h (i / 8) (by omega))
    simpa [elem, Nat.mod_lt, Nat.div_add_mod] using hbyte
  · simp [getLsbD_truncRow, hi]

/-- Groups are the same if the bytes of their rows are. -/
theorem groupOf_eq_of_bytes {s u : State} (hcfg : u.cfg = s.cfg) {n : Nat} {f g : Nat → Row}
    (h : ∀ k q b, k < n → q < s.cfg.rows → b < s.cfg.mlenb →
      elem 8 (truncRow s.cfg.mlen (f (k * s.cfg.rows + q))) b =
        elem 8 (truncRow s.cfg.mlen (g (k * s.cfg.rows + q))) b) :
    u.groupOf n f = s.groupOf n g := by
  simp only [State.groupOf, rowsOf, hcfg]
  refine List.map_congr_left fun k hk => List.map_congr_left fun q hq => ?_
  exact truncRow_eq_of_bytes fun b hb => h k q b (List.mem_range.1 hk) (List.mem_range.1 hq) hb

/-- A load that resumes loads the group that an untrapped one loads. -/
theorem groupOf_loadedRow_resumeLoad {s : State} {r : MIdx} {t : Transfer} {n : Nat} {v : List MReg}
    (hlen : v.length ≤ 8) (h0 : s.xmrstart = 0) (hn : n < t.rows) (hrows : t.rows < 2 ^ 64)
    (hv : s.RowsLoaded t v n) :
    (s.resumeLoad r v n).groupOf v.length ((s.resumeLoad r v n).loadedRow t r) =
      s.groupOf v.length (s.loadedRow t r) := by
  obtain ⟨hhost, -, -, hstart⟩ := resumesAt_resumeLoad s r v hn hrows
  have hcfg := hhost.cfg
  have hmem : (s.resumeLoad r v n).mem = s.mem := State.setGroup_mem ..
  have hstart0 : s.xmrstart.toNat = 0 := by simp [h0]
  refine groupOf_eq_of_bytes hcfg fun k q b hk hq hb => ?_
  have hbits : 8 * (b + 1) ≤ s.cfg.mlen.bits := by
    have := (Config.rows_bounds s.cfg).2.2
    omega
  have hresumed := byte_loadedRow (s.resumeLoad r v n) t r (k := k) (hcfg.symm ▸ hq) (hcfg.symm ▸ hb)
  rw [hcfg, hstart] at hresumed
  rw [hresumed, byte_loadedRow s t r hq hb, hstart0, if_neg (Nat.not_lt_zero _)]
  split
  · rename_i hlt
    have hdone := hv (k * s.cfg.rows + q) b hlt hb
    rw [(group_index k hq).1, (group_index k hq).2, List.getD_eq_getElem _ _ hk] at hdone
    rw [State.el, mrow_of_setGroup hcfg rfl hk hlen, elem_truncRow _ _ _ _ hbits, hdone]
    simp only [hlt.trans hn, true_and]
  · simp only [State.byteAt, hmem]

/-- A load that resumes ends in the state in which an untrapped one ends. -/
theorem load_resumes {i : Instr} {s : State} {r : MIdx} {t : Transfer} {word : BitVec 32} {n count : Nat}
    {v : List MReg} (hlen : v.length = count) (hcount : count ≤ 8)
    (hexec : exec i s = s.runLoad word t count r)
    (hagain : exec i (s.resumeLoad r v n) = (s.resumeLoad r v n).runLoad word t count r)
    (h0 : s.xmrstart = 0) (hn : n < t.rows) (hrows : t.rows < 2 ^ 64) (hr : s.reachable false t)
    (hv : s.RowsLoaded t v n) : exec i (s.resumeLoad r v n) = exec i s := by
  subst hlen
  have hgroup : v.length = (s.groupOf v.length (s.loadedRow t r)).length := by simp [State.groupOf]
  have hreach := (resumesAt_resumeLoad s r v hn hrows).reachable h0 hr
  rw [hexec, hagain, State.runLoad, State.runLoad, trouble_of_reachable hr, trouble_of_reachable hreach]
  simp only [State.loadDone]
  rw [groupOf_loadedRow_resumeLoad hcount h0 hn hrows hv, finish_setGroup_resumeLoad s r n hgroup (hgroup ▸ hcount)]

/-! ### Resumed stores -/

/-- The state in which a store resumes at row `n`, with the memory that its first attempt left. -/
def State.resumeStore (s : State) (mem : Memory) (n : Nat) : State :=
  { s with mem := mem, xmrstart := BitVec.ofNat 64 n }

/-- The state in which a store resumes differs in memory and `xmrstart`. -/
theorem resumesAt_resumeStore (s : State) (mem : Memory) {n rows : Nat} (hn : n < rows) (hrows : rows < 2 ^ 64) :
    ResumesAt s (s.resumeStore mem n) n where
  host := by constructor <;> simp [State.resumeStore]
  ms := rfl
  sizes := ⟨rfl, rfl, rfl⟩
  start := toNat_row hn hrows

/-- No byte of a transfer is covered twice with different values. -/
def Transfer.OneValue (t : Transfer) (value : Nat → Nat → Byte) : Prop :=
  ∀ q c q' c', q < t.rows → c < t.rowBytes → q' < t.rows → c' < t.rowBytes →
    t.addr q c = t.addr q' c' → value q c = value q' c'

/-- A completed store keeps the matrix registers. -/
theorem m_of_regsKept {s t : State} (h : RegsKept s t []) : t.m = s.m := m_ext fun r => h r (List.not_mem_nil)

/-- Where no byte is covered twice with different values, a completed store leaves the value of a covered byte
there. -/
theorem byteAt_of_covered {s u : State} {t : Transfer} {a q c : Nat} {value : Nat → Nat → Byte}
    (hstored : ∀ a, (∃ q c, s.xmrstart.toNat ≤ q ∧ q < t.rows ∧ c < t.rowBytes ∧ t.addr q c = a) →
      ∃ q c, (s.xmrstart.toNat ≤ q ∧ q < t.rows ∧ c < t.rowBytes ∧ t.addr q c = a) ∧ u.byteAt a = value q c)
    (hone : t.OneValue value)
    (hlo : s.xmrstart.toNat ≤ q) (hq : q < t.rows) (hc : c < t.rowBytes) (ha : t.addr q c = a) :
    u.byteAt a = value q c := by
  obtain ⟨q', c', ⟨-, hq', hc', ha'⟩, hvalue⟩ := hstored a ⟨q, c, hlo, hq, hc, ha⟩
  exact hvalue.trans (hone q' c' q c hq' hc' hq hc (ha'.trans ha.symm))

/-- A store that resumes completes, and leaves the bytes that an untrapped one leaves. -/
theorem store_resumes {i : Instr} {s : State} {r : MIdx} {t : Transfer} {n : Nat} {mem : Memory}
    (hfirst : StoreCompletes i s r t)
    (hagain : StoreCompletes i (s.resumeStore mem n) r t)
    (h0 : s.xmrstart = 0) (hn : n < t.rows) (hrows : t.rows < 2 ^ 64)
    (hone : t.OneValue fun q c => elem 8 (s.groupRow r q) c)
    (hdone : ∀ q c, q < n → c < t.rowBytes → mem.read (t.addr q c) = elem 8 (s.groupRow r q) c)
    (helse : ∀ a, (∀ q c, q < t.rows → c < t.rowBytes → t.addr q c ≠ a) → mem.read a = s.byteAt a) :
    ∃ u w, exec i (s.resumeStore mem n) = .next u ∧
      exec i s = .next w ∧ Finished s u ∧ HostKept s u ∧ u.m = w.m ∧ SizesKept s u ∧
      ∀ a, u.byteAt a = w.byteAt a := by
  obtain ⟨w, hw, -, -, -, -, -, hregs, hkept, hstored⟩ := hfirst
  obtain ⟨u, hu, hfin, hhost, hsizes, -, -, hregs', hkept', hstored'⟩ := hagain
  have hstart : (BitVec.ofNat 64 n).toNat = n := toNat_row hn hrows
  have hstart0 : s.xmrstart.toNat = 0 := by simp [h0]
  refine ⟨u, w, hu, hw, { hfin with }, { hhost with }, (m_of_regsKept hregs').trans (m_of_regsKept hregs).symm,
    hsizes, fun a => ?_⟩
  by_cases hcov : ∃ q c, q < t.rows ∧ c < t.rowBytes ∧ t.addr q c = a
  · obtain ⟨q, c, hq, hc, ha⟩ := hcov
    rw [byteAt_of_covered hstored hone (hstart0 ▸ Nat.zero_le q) hq hc ha]
    by_cases hlate : ∃ q c, n ≤ q ∧ q < t.rows ∧ c < t.rowBytes ∧ t.addr q c = a
    · obtain ⟨q', c', hlo, hq', hc', ha'⟩ := hlate
      rw [byteAt_of_covered hstored' hone (hstart.trans_le hlo) hq' hc' ha']
      exact hone q' c' q c hq' hc' hq hc (ha'.trans ha.symm)
    · have hlt : q < n := Nat.lt_of_not_le fun hlo => hlate ⟨q, c, hlo, hq, hc, ha⟩
      rw [hkept' a fun q c ⟨hlo, hrest⟩ => hlate ⟨q, c, hstart.symm.trans_le hlo, hrest⟩]
      exact ha ▸ hdone q c hlt hc
  · rw [hkept a fun q c ⟨_, hrest⟩ => hcov ⟨q, c, hrest⟩,
      hkept' a fun q c ⟨_, hrest⟩ => hcov ⟨q, c, hrest⟩]
    exact helse a fun q c hq hc ha => hcov ⟨q, c, hq, hc, ha⟩

/-- Settles O54: the resumed instruction runs the rows that are left, which gives with the rows before them what an
untrapped one gives. -/
theorem transferResumes : Obligations.TransferResumes := by
  intro s r rs2 rs1 n hms h0 loads stores
  refine ⟨fun p hp hshape v hv hn hr hbytes => ?_, fun p hp hreg v hv hn hr hbytes => ?_,
    fun p hp hshape mem hmem hwf hn hr hone hdone helse => ?_,
    fun p hp hreg mem hmem hwf hn hr hone hdone helse => ?_⟩
  · have hrows := shaped_rows_lt s p.2 rs1 rs2
    have hres := resumesAt_resumeLoad s r v hn hrows
    exact load_resumes hv (by decide) (exec_shapedLoads hms (.inl h0) p hp hshape)
      (hres.exec_shapedLoads hms hn p hp hshape) h0 hn hrows hr hbytes
  · have hcount := ((esize_whole r rs1).1 p hp).1
    have hrows := whole_rows_lt s p.2.2 rs1 hcount
    have hres := resumesAt_resumeLoad s r v hn hrows
    exact load_resumes hv hcount (exec_wholeLoads hms p hp hreg (.inl h0))
      (hres.exec_wholeLoads hms p hp hreg hn) h0 hn hrows hr hbytes
  · have hrows := shaped_rows_lt s p.2 rs1 rs2
    have hres := resumesAt_resumeStore s mem hn hrows
    exact store_resumes (storeCompletes_of_reachable (exec_shapedStores hms (.inl h0) p hp hshape) hwf hr)
      (storeCompletes_of_reachable (hres.exec_shapedStores hms hn p hp hshape) hmem (hres.reachable h0 hr))
      h0 hn hrows hone hdone helse
  · have hrows := whole_rows_lt s p.2.2 rs1 ((esize_whole r rs1).2 p hp).1
    have hres := resumesAt_resumeStore s mem hn hrows
    exact store_resumes (storeCompletes_of_reachable (exec_wholeStores hms p hp hreg (.inl h0)) hwf hr)
      (storeCompletes_of_reachable (hres.exec_wholeStores hms p hp hreg hn) hmem (hres.reachable h0 hr))
      h0 hn hrows hone hdone helse

end Sys2Proof.Machine
end

section
/-! Moves (family 43_move.md): the row indices that are RESERVED, for the moves and the pointwise instructions, and
what the moves leave when they complete. -/

namespace Sys2Proof.Machine

/-- The checks that every move makes pass when the unit is ready. -/
theorem moveChecks_pass {s : State} (hr : s.ready) : ∀ c ∈ s.moveChecks, c.1 = false := by
  have hstart : s.startGate.1 = false := by simpa [State.startGate] using hr.2
  simp [State.moveChecks, offGate_pass hr.1, hstart]

/-! ### Row indices that are RESERVED -/

section RowIndex

variable {s : State} (hr : s.ready) (hpolicy : s.cfg.reservedPolicy = .refuse)

include hr hpolicy

/-- A move of a row that the register does not have. -/
theorem moveRow_rowIndex (word : BitVec 32) (md ms1 : MIdx) {i : Nat} (hi : s.rowExists i = false) :
    s.moveRow word md ms1 i = .refused (.reserved .rowIndex) :=
  guard_refused word [] _ hpolicy (moveChecks_pass hr) hi

/-- A pointwise instruction, of any operation, whose second operand is a row that the register does not have. -/
theorem pwChecks_rowIndex (word : BitVec 32) {w bit : Nat} {b : Src2} (go : Host.Outcome State Fault Refusal)
    (hb : s.has bit) (hrow : b.rowOk s = false) :
    s.guard word (s.pwChecks w bit b) go = .refused (.reserved .rowIndex) :=
  guard_refused word [needs (s.validPW w) .shape] go hpolicy (gates_pass hr hb) hrow

/-- The pointwise instructions of both widths whose second operand is a row that the register does not have. -/
theorem pointwise_rowIndex (md ms2 : MIdx) {b : Src2} (hrow : b.rowOk s = false) :
    (s.has 7 → ∀ i ∈ pointwiseS md ms2 b, exec i s = .refused (.reserved .rowIndex)) ∧
      (s.has 6 → ∀ i ∈ pointwiseD md ms2 b, exec i s = .refused (.reserved .rowIndex)) := by
  refine ⟨fun hbit i hi => ?_, fun hbit i hi => ?_⟩
  · obtain ⟨go, hexec⟩ := exec_pointwiseS s md ms2 b i hi
    exact hexec.trans (pwChecks_rowIndex hr hpolicy _ go hbit hrow)
  · obtain ⟨go, hexec⟩ := exec_pointwiseD s md ms2 b i hi
    exact hexec.trans (pwChecks_rowIndex hr hpolicy _ go hbit hrow)

end RowIndex

/-- Settles O26: the gates pass and the index names no row, so the check of the row index fires. -/
theorem rowIndexReserved : Obligations.RowIndexReserved := by
  intro s md ms2 ms1 rs1 u hr hpolicy
  have past : ∀ {i : Nat}, s.cfg.rows ≤ i → s.rowExists i = false := fun h => decide_eq_false (Nat.not_lt.2 h)
  refine ⟨fun hx => ?_, fun hu => ?_⟩
  · exact ⟨moveRow_rowIndex hr hpolicy _ md ms1 (past hx),
      pointwise_rowIndex hr hpolicy md ms2 (b := .mvx ms1 rs1) (past hx)⟩
  · exact ⟨moveRow_rowIndex hr hpolicy _ md ms1 (past hu),
      pointwise_rowIndex hr hpolicy md ms2 (b := .mvi ms1 u) (past hu)⟩

/-! ### Moves that complete -/

/-- A row of a register has no bits past `MLEN`. -/
@[simp] theorem truncRow_mrow (s : State) (r : MIdx) (i : Nat) : truncRow s.cfg.mlen (s.mrow r i) = s.mrow r i :=
  truncRow_truncRow _ _

/-- An instruction that writes the rows of one register completes when its checks pass: the register has those rows,
and everything else is kept. -/
theorem guard_setM_rowsOf {s : State} (word : BitVec 32) {checks : List (Bool × Stop)}
    (hpass : ∀ c ∈ checks, c.1 = false) (md : MIdx) (f : Nat → Row) :
    ∃ t, s.guard word checks (.next (s.setM md (rowsOf s.cfg f)).finish) = .next t ∧ Rewrites s t [md] ∧
      SatKept s t ∧ FloatKept s t ∧ ∀ q, q < s.cfg.rows → t.mrow md q = truncRow s.cfg.mlen (f q) := by
  refine ⟨_, guard_of_pass s word _ hpass, rewrites_setM s md _, rfl, ⟨rfl, rfl⟩, fun q hq => ?_⟩
  have hkept : (s.setM md (rowsOf s.cfg f)).finish.mrow md q = (s.setM md (rowsOf s.cfg f)).mrow md q :=
    mrow_congr rfl rfl q
  rw [hkept, mrow_setM_same, getD_rowsOf s.cfg f hq, truncRow_truncRow]

/-- Rows of one register, copied to rows of another. -/
theorem guard_copies {s : State} (word : BitVec 32) {checks : List (Bool × Stop)}
    (hpass : ∀ c ∈ checks, c.1 = false) (md ms1 : MIdx) (row : Nat → Nat) :
    ∃ t, s.guard word checks (.next (s.setM md (rowsOf s.cfg fun q => s.mrow ms1 (row q))).finish) = .next t ∧
      Rewrites s t [md] ∧ SatKept s t ∧ FloatKept s t ∧
      ∀ q, q < s.cfg.rows → t.mrow md q = s.mrow ms1 (row q) := by
  simpa only [truncRow_mrow] using guard_setM_rowsOf (s := s) word hpass md fun q => s.mrow ms1 (row q)

/-- The move of a row that the register has. -/
theorem moveRow_copies {s : State} (word : BitVec 32) (hr : s.ready) (md ms1 : MIdx) {i : Nat}
    (hi : i < s.cfg.rows) :
    ∃ t, s.moveRow word md ms1 i = .next t ∧ Rewrites s t [md] ∧ SatKept s t ∧ FloatKept s t ∧
      ∀ q, q < s.cfg.rows → t.mrow md q = s.mrow ms1 i := by
  have hrow : s.rowExists i = true := decide_eq_true hi
  have hpass : ∀ c ∈ s.moveChecks ++ [needs (s.rowExists i) .rowIndex], c.1 = false :=
    List.forall_mem_append.2 ⟨moveChecks_pass hr, by simp [hrow]⟩
  exact guard_copies word hpass md ms1 fun _ => i

/-- An element of a row that is filled with copies of one value (decision D30). -/
theorem elem_packRow_replicate (l : Mlen) {w : Nat} (hw : 0 < w) (v : BitVec w) {j : Nat}
    (hj : w * (j + 1) ≤ l.bits) :
    elem w (truncRow l (packRow (List.replicate (l.bits / w) v))) j = v := by
  have hlt : j < l.bits / w := (Nat.le_div_iff_mul_le hw).2 (by rwa [Nat.mul_comm])
  rw [elem_truncRow l w _ j hj, elem_packRow hw _ j (hj.trans (Mlen.bits_le l))]
  simp [hlt]

/-- A scalar has a bit. -/
theorem xlen_bits_pos (l : Xlen) : 0 < l.bits := by cases l <;> simp [Xlen.bits]

/-- Settles O28: the checks of a move pass; three forms copy rows, and the fourth fills each row with the scalar. -/
theorem movesComplete : Obligations.MovesComplete := by
  intro s md ms1 rs1 u hr
  have hpass := moveChecks_pass hr
  refine ⟨guard_copies _ hpass md ms1 id, fun hx => moveRow_copies _ hr md ms1 hx,
    fun hu => moveRow_copies _ hr md ms1 hu, ?_⟩
  obtain ⟨t, hrun, hrewrites, hsat, hfloat, hrows⟩ := guard_setM_rowsOf (encode (.mmovMx md rs1)) hpass md fun _ =>
    packRow (List.replicate (s.cfg.mlen.bits / s.cfg.xlen.bits) ((s.xcval rs1).setWidth s.cfg.xlen.bits))
  refine ⟨t, hrun, hrewrites, hsat, hfloat, fun q j hq hj => ?_⟩
  rw [State.el, hrows q hq]
  exact elem_packRow_replicate s.cfg.mlen (xlen_bits_pos s.cfg.xlen) _ hj

end Sys2Proof.Machine
end

section
/-! Configuration instructions (family 44_config.md): what they leave when they complete, and register values that do
not fit their field. -/

namespace Sys2Proof.Machine

/-- The outcome of an instruction that sets `xmsize` to the given fields, makes `MS` Dirty and changes nothing else
(44_config.md R290, R294). -/
def SetsSizes (s : State) (out : Host.Outcome State Fault Refusal) (m n : BitVec 8) (k : BitVec 16) : Prop :=
  ∃ t, out = .next t ∧ Finished s t ∧ HostKept s t ∧ MemKept s t ∧ RegsKept s t [] ∧ SatKept s t ∧ FloatKept s t ∧
    t.sizeM = m ∧ t.sizeN = n ∧ t.sizeK = k

/-- An instruction that writes the fields of `xmsize`, when its checks pass. -/
theorem setsSizes_guard {s u : State} (word : BitVec 32) {checks : List (Bool × Stop)}
    (hpass : ∀ c ∈ checks, c.1 = false) {m n : BitVec 8} {k : BitVec 16}
    (hu : u = { s with sizeM := m, sizeN := n, sizeK := k }) :
    SetsSizes s (s.guard word checks (.next u.finish)) m n k := by
  subst hu
  have hhost : HostKept s { s with sizeM := m, sizeN := n, sizeK := k } := by constructor <;> simp
  exact ⟨_, guard_of_pass s word _ hpass, finished_finish_of_eq rfl rfl rfl, hhost.finish, ⟨fun _ => rfl, rfl, rfl⟩,
    fun _ _ => rfl, rfl, ⟨rfl, rfl⟩, rfl, rfl, rfl⟩

section Ready

variable {s : State} (hr : s.ready)

include hr

/-- A configuration with an immediate has no check of its value. -/
theorem configure_setsSizes (word : BitVec 32) {f : State → State} {m n : BitVec 8} {k : BitVec 16}
    (hf : f s = { s with sizeM := m, sizeN := n, sizeK := k }) : SetsSizes s (s.configure word f) m n k :=
  setsSizes_guard word (moveChecks_pass hr) hf

/-- A configuration with a register value that fits (44_config.md R292). -/
theorem configureReg_setsSizes (word : BitVec 32) {width : Nat} {rs1 : XIdx} {f : Word → State → State}
    {m n : BitVec 8} {k : BitVec 16} (hfit : (s.xval rs1).toNat < 2 ^ width)
    (hf : f (s.xval rs1) s = { s with sizeM := m, sizeN := n, sizeK := k }) :
    SetsSizes s (s.configureReg word width rs1 f) m n k := by
  have hpass : ∀ c ∈ s.moveChecks ++ [needs (decide ((s.xval rs1).toNat < 2 ^ width)) .cfgValue], c.1 = false :=
    List.forall_mem_append.2 ⟨moveChecks_pass hr, by simp [hfit]⟩
  exact setsSizes_guard word hpass hf

/-- A configuration with a register value that does not fit (44_config.md R292, decision D33). -/
theorem configureReg_cfgValue (word : BitVec 32) {width : Nat} {rs1 : XIdx} (f : Word → State → State)
    (hpolicy : s.cfg.reservedPolicy = .refuse) (hlarge : 2 ^ width ≤ (s.xval rs1).toNat) :
    s.configureReg word width rs1 f = .refused (.reserved .cfgValue) :=
  guard_refused word [] _ hpolicy (moveChecks_pass hr) (decide_eq_false (Nat.not_lt.2 hlarge))

end Ready

/-- Settles O29: the checks pass for an immediate and for a register value that fits, so the field is set; the check of
the value fires for one that does not fit. -/
theorem configComplete : Obligations.ConfigComplete := by
  intro s u rs1 hr
  refine ⟨?mcfgki, ?mcfgmi, ?mcfgni, ?mcfgk, ?mcfgm, ?mcfgn, ?mcfg, fun hpolicy => ?large⟩
  case mcfgki =>
    show SetsSizes s (execMcfgki u s) _ _ _
    exact configure_setsSizes hr _ rfl
  case mcfgmi =>
    show SetsSizes s (execMcfgmi u s) _ _ _
    exact configure_setsSizes hr _ rfl
  case mcfgni =>
    show SetsSizes s (execMcfgni u s) _ _ _
    exact configure_setsSizes hr _ rfl
  case mcfgk =>
    intro hfit
    show SetsSizes s (execMcfgk rs1 s) _ _ _
    exact configureReg_setsSizes hr _ hfit rfl
  case mcfgm =>
    intro hfit
    show SetsSizes s (execMcfgm rs1 s) _ _ _
    exact configureReg_setsSizes hr _ hfit rfl
  case mcfgn =>
    intro hfit
    show SetsSizes s (execMcfgn rs1 s) _ _ _
    exact configureReg_setsSizes hr _ hfit rfl
  case mcfg =>
    intro hfit
    show SetsSizes s (execMcfg rs1 s) _ _ _
    exact configureReg_setsSizes hr _ hfit rfl
  case large =>
    have hk (hlarge : 2 ^ 16 ≤ (s.xval rs1).toNat) : execMcfgk rs1 s = .refused (.reserved .cfgValue) :=
      configureReg_cfgValue hr _ _ hpolicy hlarge
    have hm (hlarge : 2 ^ 8 ≤ (s.xval rs1).toNat) : execMcfgm rs1 s = .refused (.reserved .cfgValue) :=
      configureReg_cfgValue hr _ _ hpolicy hlarge
    have hn (hlarge : 2 ^ 8 ≤ (s.xval rs1).toNat) : execMcfgn rs1 s = .refused (.reserved .cfgValue) :=
      configureReg_cfgValue hr _ _ hpolicy hlarge
    have hall (hlarge : 2 ^ 32 ≤ (s.xval rs1).toNat) : execMcfg rs1 s = .refused (.reserved .cfgValue) :=
      configureReg_cfgValue hr _ _ hpolicy hlarge
    exact ⟨hk, fun hlarge => ⟨hm hlarge, hn hlarge⟩, hall⟩

end Sys2Proof.Machine
end

section
/-! Pointwise additions, subtractions and multiplications (family 45_pointwise_arith.md): what they leave when they
complete, the two halves of a product, and the second operand of the four forms. -/

namespace Sys2Proof.Machine

/-! ### Completion -/

/-- How many elements wider than a nibble lie in `sizeK` bytes. -/
theorem kElems_of_four_lt (s : State) {w : Nat} (hw : 4 < w) : s.kElems w = s.sK / (w / 8) := by
  rw [State.kElems, if_neg hw.ne']

/-- An instruction that writes the elements of one register completes when its checks pass: the register has those
elements in the shape and zero elsewhere, and everything else is kept. -/
theorem guard_setM_tiled {s : State} (word : BitVec 32) {checks : List (Bool × Stop)}
    (hpass : ∀ c ∈ checks, c.1 = false) (md : MIdx) (nrows ncols : Nat) {w : Nat} (hw : 0 < w)
    (f : Nat → Nat → BitVec w) :
    ∃ t, s.guard word checks (.next (s.setM md (tiled s.cfg nrows ncols w f)).finish) = .next t ∧
      Rewrites s t [md] ∧ SatKept s t ∧ FloatKept s t ∧ t.Holds w md nrows ncols f :=
  ⟨_, guard_of_pass s word _ hpass, rewrites_setM s md _, rfl, ⟨rfl, rfl⟩,
    holds_of_tiled rfl hw (setM_get_same s md _)⟩

/-- An operation that is the pointwise instruction of `op`, on the second operand of its form, completes with any
`result` that equals `op`. -/
theorem pointwiseCompletes_of_exec {w bit : Nat} {instr : MIdx → MIdx → Src2 → Instr}
    {op result : BitVec w → BitVec w → BitVec w} (hw : 4 < w) (hop : ∀ a b, op a b = result a b)
    (hexec : ∀ md ms2 b s, exec (instr md ms2 b) s =
      s.pointwise (encode (instr md ms2 b)) w bit op md ms2 b) :
    PointwiseCompletes w bit instr result := by
  intro s md ms2 b hr hb hv hrow
  obtain rfl : op = result := funext₂ hop
  rw [hexec, State.pointwise, kElems_of_four_lt s hw]
  exact guard_setM_tiled _ (pwChecks_pass hr hb hv hrow) md _ _ (Nat.zero_lt_of_lt hw) _

/-! ### The operations -/

/-- The sum wraps. -/
theorem maddOp_eq {w : Nat} (a b : BitVec w) : maddOp a b = a + b := rfl

/-- `ms2` is the minuend, and the difference wraps. -/
theorem msubOp_eq {w : Nat} (a b : BitVec w) : msubOp a b = a - b := rfl

/-- The low half of a product is that of the product at any greater width. -/
theorem mmulOp_eq_setWidth_mul {w v : Nat} (h : w ≤ v) (a b : BitVec w) :
    mmulOp a b = (a.setWidth v * b.setWidth v).setWidth w := by
  rw [BitVec.setWidth_mul _ _ h, BitVec.setWidth_setWidth_of_le _ h, BitVec.setWidth_setWidth_of_le _ h,
    BitVec.setWidth_eq, BitVec.setWidth_eq, mmulOp]

/-- A number and its residue modulo `2^v` have the same digits below digit `v`, here the `len` digits from `lo` on. -/
theorem emod_two_pow_ediv_emod {v lo len : Nat} (h : lo + len ≤ v) (n : Int) :
    n % 2 ^ v / 2 ^ lo % 2 ^ len = n / 2 ^ lo % 2 ^ len := by
  obtain ⟨k, rfl⟩ := Nat.exists_eq_add_of_le h
  have hne : (2 : Int) ^ lo ≠ 0 := by positivity
  have hdigits : n = n % 2 ^ (lo + len + k) + 2 ^ lo * (2 ^ len * (2 ^ k * (n / 2 ^ (lo + len + k)))) := by
    rw [← mul_assoc, ← mul_assoc, ← pow_add, ← pow_add, Int.emod_add_mul_ediv]
  conv_rhs => rw [hdigits, Int.add_mul_ediv_left _ _ hne, Int.add_mul_emod_self_left]

/-- The bits of an integer from `lo` on are those of its quotient by `2^lo`. -/
theorem extractLsb'_ofInt {v lo len : Nat} (h : lo + len ≤ v) (n : Int) :
    (BitVec.ofInt v n).extractLsb' lo len = BitVec.ofInt len (n / 2 ^ lo) := by
  have hresidue : 0 ≤ n % 2 ^ v := Int.emod_nonneg n (by positivity)
  have hquotient : 0 ≤ n / 2 ^ lo % 2 ^ len := Int.emod_nonneg _ (by positivity)
  apply BitVec.eq_of_toNat_eq
  zify
  simp [Nat.shiftRight_eq_div_pow, hresidue, hquotient, emod_two_pow_ediv_emod h]

/-- The high half of the signed product is that of the product of the sign extensions (decision D34). -/
theorem mmulhOp_eq_extractLsb'_mul {w v : Nat} (h : w + w ≤ v) (a b : BitVec w) :
    mmulhOp a b = (a.signExtend v * b.signExtend v).extractLsb' w w := by
  rw [BitVec.signExtend, BitVec.signExtend, ← BitVec.ofInt_mul, extractLsb'_ofInt h, mmulhOp]

/-! ### The scalar operand -/

/-- The scalar of a 32-bit host, at any width: the low 32 bits, sign-extended and cut. -/
theorem scalar_x32 {s : State} (h : s.cfg.xlen = .x32) (w : Nat) (rs1 : XcIdx) :
    s.scalar w rs1 = (((s.xcval rs1).setWidth 32).signExtend 64).setWidth w := by
  rw [State.scalar, h, signX]

/-- The scalar of a 64-bit host, at any width: the low bits. -/
theorem scalar_x64 {s : State} (h : s.cfg.xlen = .x64) (w : Nat) (rs1 : XcIdx) :
    s.scalar w rs1 = (s.xcval rs1).setWidth w := by
  rw [State.scalar, h, signX]

/-- Cutting a sign extension back to the width gives the value. -/
theorem setWidth_signExtend_of_le {w v : Nat} (h : w ≤ v) (x : BitVec w) : (x.signExtend v).setWidth w = x := by
  ext i hi
  simp [BitVec.getElem_signExtend, hi, hi.trans_le h]

/-! ### The statements -/

/-- Settles O30: each form is the pointwise instruction of the sum. -/
theorem maddCompletes : Obligations.MaddCompletes :=
  ⟨pointwiseCompletes_of_exec (by decide) maddOp_eq fun _ _ b _ => by cases b <;> rfl,
    pointwiseCompletes_of_exec (by decide) maddOp_eq fun _ _ b _ => by cases b <;> rfl⟩

/-- Settles O31: each form is the pointwise instruction of the difference. -/
theorem msubCompletes : Obligations.MsubCompletes :=
  ⟨pointwiseCompletes_of_exec (by decide) msubOp_eq fun _ _ b _ => by cases b <;> rfl,
    pointwiseCompletes_of_exec (by decide) msubOp_eq fun _ _ b _ => by cases b <;> rfl⟩

/-- Settles O32: each form is the pointwise instruction of the product, whose low half is the same at the double
width. -/
theorem mmulCompletes : Obligations.MmulCompletes :=
  ⟨pointwiseCompletes_of_exec (by decide) (mmulOp_eq_setWidth_mul (by decide)) fun _ _ b _ => by cases b <;> rfl,
    pointwiseCompletes_of_exec (by decide) (mmulOp_eq_setWidth_mul (by decide)) fun _ _ b _ => by cases b <;> rfl⟩

/-- Settles O33: each form is the pointwise instruction of the quotient of the signed product, which is the high half
at the double width. -/
theorem mmulhCompletes : Obligations.MmulhCompletes :=
  ⟨pointwiseCompletes_of_exec (by decide) (mmulhOp_eq_extractLsb'_mul (by decide)) fun _ _ b _ => by cases b <;> rfl,
    pointwiseCompletes_of_exec (by decide) (mmulhOp_eq_extractLsb'_mul (by decide)) fun _ _ b _ => by cases b <;> rfl⟩

/-- Settles O34: three forms name an element; the scalar is the register value, sign-extended and cut. -/
theorem secondOperand : Obligations.SecondOperand := by
  intro s w i j ms1 rs1 u
  refine ⟨rfl, rfl, rfl, fun h => ?_, fun h => ?_, fun h => ?_, fun h => scalar_x64 h 32 rs1⟩
  · exact (scalar_x32 h 64 rs1).trans (BitVec.setWidth_eq _)
  · exact (scalar_x32 h 32 rs1).trans (setWidth_signExtend_of_le (by decide) _)
  · exact (scalar_x64 h 64 rs1).trans (BitVec.setWidth_eq _)

end Sys2Proof.Machine
end

section
/-! Rounding shifts and narrowing clips (family 46_pointwise_shift_clip.md): what the operations give on one element,
and what the instructions leave when they complete. -/

namespace Sys2Proof.Machine

/-! ### One element -/

/-- The rounding shift is the arithmetic shift and the rounding increment, and it wraps. -/
theorem msraOp_eq_sshiftRight_add {w : Nat} (rm : BitVec 2) (a : BitVec w) (d : Nat) :
    msraOp rm a d = a.sshiftRight d + BitVec.ofNat w (roundInc rm a d) := by
  rw [msraOp, roundoffSigned, BitVec.ofInt_add, BitVec.ofInt_natCast, BitVec.sshiftRight, Int.shiftRight_eq_div_pow,
    Nat.cast_pow, Nat.cast_ofNat]

/-- Rounding an unsigned value off, as an integer quotient and the rounding increment. -/
theorem roundoffUnsigned_eq {w : Nat} (rm : BitVec 2) (a : BitVec w) (d : Nat) :
    roundoffUnsigned rm a d = (a.toNat : Int) / 2 ^ d + roundInc rm a d := by
  simp [roundoffUnsigned]

/-- An unsigned value is rounded off to no negative one. -/
theorem roundoffUnsigned_nonneg {w : Nat} (rm : BitVec 2) (a : BitVec w) (d : Nat) :
    0 ≤ roundoffUnsigned rm a d :=
  Int.natCast_nonneg _

/-- The integer `v` clipped to `lo`..`hi` at `n` bits, and whether it lies outside
(46_pointwise_shift_clip.md R363). -/
def clamped (n : Nat) (lo hi v : Int) : BitVec n × Bool :=
  (BitVec.ofInt n (max lo (min hi v)), decide (v < lo ∨ hi < v))

/-- The signed clip is the clip to the range of `n`-bit integers. -/
theorem clipSigned_eq_clamped {n : Nat} {lo hi : Int} (hlo : -2 ^ (n - 1) = lo) (hhi : 2 ^ (n - 1) - 1 = hi)
    (v : Int) : clipSigned n v = clamped n lo hi v := by
  have hpos : (0 : Int) < 2 ^ (n - 1) := by positivity
  rw [clipSigned, hlo, hhi, clamped]
  split_ifs with habove hbelow
  · rw [min_eq_left habove.le, max_eq_right (by omega), decide_eq_true (.inr habove)]
  · rw [min_eq_right (by omega), max_eq_left hbelow.le, decide_eq_true (.inl hbelow)]
  · rw [min_eq_right (by omega), max_eq_right (by omega), decide_eq_false (by omega)]

/-- The unsigned clip, of a value that is not negative, is the clip to the range of `n`-bit naturals. -/
theorem clipUnsigned_eq_clamped {n : Nat} {hi v : Int} (hhi : 2 ^ n - 1 = hi) (hv : 0 ≤ v) :
    clipUnsigned n v = clamped n 0 hi v := by
  have hpos : (0 : Int) < 2 ^ n := by positivity
  rw [clipUnsigned, hhi, clamped]
  split_ifs with habove
  · rw [min_eq_left habove.le, max_eq_right (by omega), decide_eq_true (.inr habove)]
  · rw [min_eq_right (by omega), max_eq_right hv, decide_eq_false (by omega)]

/-- `mn4clip` clips the rounded signed value to the signed range of a quarter of the width. -/
theorem clipSignedOp_eq_clamped {w : Nat} {lo hi : Int} (hlo : -2 ^ (w / 4 - 1) = lo)
    (hhi : 2 ^ (w / 4 - 1) - 1 = hi) (rm : BitVec 2) (a : BitVec w) (d : Nat) :
    clipSignedOp rm a d = clamped (w / 4) lo hi (a.toInt / 2 ^ d + roundInc rm a d) :=
  clipSigned_eq_clamped hlo hhi _

/-- `mn4clipu` clips the rounded unsigned value to the unsigned range of a quarter of the width. -/
theorem clipUnsignedOp_eq_clamped {w : Nat} {hi : Int} (hhi : 2 ^ (w / 4) - 1 = hi) (rm : BitVec 2)
    (a : BitVec w) (d : Nat) :
    clipUnsignedOp rm a d = clamped (w / 4) 0 hi (a.toNat / 2 ^ d + roundInc rm a d) := by
  rw [← roundoffUnsigned_eq]
  exact clipUnsigned_eq_clamped hhi (roundoffUnsigned_nonneg rm a d)

/-! ### Completion -/

/-- An instruction that is the rounding shift completes where its checks pass. -/
theorem shiftRight_runs {i : Instr} {s : State} {w bit : Nat} {md ms2 : MIdx} {b : Src2} (hw : 4 < w)
    (hexec : exec i s = s.shiftRight (encode i) w bit md ms2 b) (hr : s.ready) (hrow : b.rowOk s = true)
    (hb : s.has bit) (hv : s.validPW w = true) :
    ∃ t, exec i s = .next t ∧ Rewrites s t [md] ∧ SatKept s t ∧ FloatKept s t ∧
      t.Holds w md s.sM (s.sK / (w / 8)) fun i j =>
        let d := (b.value s w i j).toNat % w
        (s.el w ms2 i j).sshiftRight d + BitVec.ofNat w (roundInc s.xmxrm (s.el w ms2 i j) d) := by
  simp only [hexec, State.shiftRight, kElems_of_four_lt s hw, State.shiftAmount, msraOp_eq_sshiftRight_add]
  exact guard_setM_tiled _ (pwChecks_pass hr hb hv hrow) md _ _ (Nat.zero_lt_of_lt hw) _

/-- Saturating before the epilogue changes nothing that `Rewrites` speaks of. -/
theorem Rewrites.saturate {s u : State} {regs : List MIdx} (h : Rewrites s u.finish regs) (sat : Bool) :
    Rewrites s (u.saturate sat).finish regs where
  finished := ⟨h.finished.pc, h.finished.instret, rfl, rfl⟩
  host := { h.host with }
  sizes := h.sizes
  mem := ⟨h.mem.bytes, h.mem.stale, h.mem.draws⟩
  regs := h.regs

/-- When some active element saturates. -/
theorem anySat_iff (s : State) {w : Nat} (clip : BitVec 2 → BitVec w → Nat → BitVec (w / 4) × Bool) (ms2 : MIdx)
    (b : Src2) :
    s.anySat w clip ms2 b = true ↔ ∃ i j, i < s.sM ∧ j < s.kElems w ∧
      (clip s.xmxrm (s.el w ms2 i j) (s.shiftAmount w b i j)).2 = true := by
  simp [State.anySat]

/-- An operation that is the narrowing clip of `clip`, where `clip` clips the rounded value to `lo`..`hi`,
completes. -/
theorem clipCompletes_of_exec {w bit : Nat} {instr : MIdx → MIdx → Src2 → Instr} {lo hi : Int}
    {clip : BitVec 2 → BitVec w → Nat → BitVec (w / 4) × Bool} {value : BitVec 2 → BitVec w → Nat → Int}
    (hw : 4 < w) (hclip : ∀ rm a d, clip rm a d = clamped (w / 4) lo hi (value rm a d))
    (hexec : ∀ md ms2 b s, exec (instr md ms2 b) s =
      s.narrowClip (encode (instr md ms2 b)) w bit clip md ms2 b) :
    ClipCompletes w bit instr lo hi value := by
  intro s md ms2 b hr hb hv hrow v
  have hresult : (fun i j => (clip s.xmxrm (s.el w ms2 i j) (s.shiftAmount w b i j)).1) =
      fun i j => BitVec.ofInt (w / 4) (max lo (min hi (v i j))) := by
    funext i j
    exact congrArg Prod.fst (hclip _ _ _)
  have hsat : s.anySat w clip ms2 b = true ↔
      ∃ i j, i < s.sM ∧ j < s.sK / (w / 8) ∧ (v i j < lo ∨ hi < v i j) := by
    simp only [anySat_iff, hclip, clamped, decide_eq_true_iff, kElems_of_four_lt s hw]
    rfl
  rw [hexec, State.narrowClip, hresult, kElems_of_four_lt s hw]
  refine ⟨_, guard_of_pass s _ _ (pwChecks_pass hr hb hv hrow), (rewrites_setM s md _).saturate _, ⟨rfl, rfl⟩,
    holds_of_tiled rfl (by omega) (setM_get_same s md _), ?_⟩
  rw [← hsat, ← Bool.or_eq_true]
  rfl

/-! ### The statements -/

/-- Settles O36: each form is the rounding shift. -/
theorem msraCompletes : Obligations.MsraCompletes := by
  intro s md ms2 b hr hrow
  exact ⟨shiftRight_runs (by decide) (by cases b <;> rfl) hr hrow,
    shiftRight_runs (by decide) (by cases b <;> rfl) hr hrow⟩

/-- Settles O37: each form is the narrowing clip of the rounded value, to the range of a quarter of the width. -/
theorem clipsComplete : Obligations.ClipsComplete :=
  ⟨clipCompletes_of_exec (by decide) (clipSignedOp_eq_clamped (by decide) (by decide)) fun _ _ b _ => by
      cases b <;> rfl,
    clipCompletes_of_exec (by decide) (clipSignedOp_eq_clamped (by decide) (by decide)) fun _ _ b _ => by
      cases b <;> rfl,
    clipCompletes_of_exec (by decide) (clipUnsignedOp_eq_clamped (by decide)) fun _ _ b _ => by cases b <;> rfl,
    clipCompletes_of_exec (by decide) (clipUnsignedOp_eq_clamped (by decide)) fun _ _ b _ => by cases b <;> rfl⟩

end Sys2Proof.Machine
end

section
/-! Fetching and stepping (families 20_memory.md and 60_exceptions.md): what a fetch sees, the exceptions it raises,
and what the fetched word does. -/

namespace Sys2Proof.Machine

/-! ### What a step does -/

/-- A fetch that raises an exception takes it and does nothing else. -/
theorem step_of_fetchFault {s : State} {e : Exc} {tval : Word} (h : s.fetchFault = some (e, tval)) :
    step s = .next (s.takeException e tval) := by
  rw [step, h]

/-- A fetch that raises nothing runs the fetched word. -/
theorem step_of_fetched {s : State} (h : s.fetchFault = none) : step s = runWord s.fetchWord s.afterFetch := by
  rw [step, h]

/-- A word that decodes to a matrix instruction runs it. -/
theorem runWord_of_decoded {w : BitVec 32} {i : Instr} (h : decode w = .ok i) (s : State) :
    runWord w s = exec i s := by
  rw [runWord, h]

/-- A reserved word is a RESERVED case. -/
theorem runWord_of_reserved {w : BitVec 32} {why : Reserved} (h : decode w = .error (.reserved why)) (s : State) :
    runWord w s = s.stop w (.reserved why) := by
  rw [runWord, h]

/-- A word outside the matrix instructions is the host's. -/
theorem runWord_of_notMatrix {w : BitVec 32} (h : decode w = .error .notMatrix) (s : State) :
    runWord w s = otherWord w s := by
  rw [runWord, h]

/-- A host instruction that spec/ describes runs. -/
theorem otherWord_of_host {w : BitVec 32} {i : HostInstr} (h : decodeHost w = some i) (s : State) :
    otherWord w s = execHost i w s := by
  rw [otherWord, h]

/-- No host instruction has the major opcode of the matrix instructions. -/
theorem decodeHost_of_majorOpcode {w : BitVec 32} (h : w.extractLsb' 0 7 = majorOpcode) : decodeHost w = none := by
  have hop : (w.extractLsb' 0 7).toNat = 43 := congrArg BitVec.toNat h
  simp only [decodeHost, hop]

/-- A word of the matrix opcode space with another `func3` is a RESERVED case. -/
theorem otherWord_of_majorOpcode {w : BitVec 32} (h : w.extractLsb' 0 7 = majorOpcode) (s : State) :
    otherWord w s = s.stop w (.reserved .func3) := by
  rw [otherWord, decodeHost_of_majorOpcode h]
  exact if_pos h

/-- A RESERVED case by each policy. -/
theorem stop_reserved (s : State) (word : BitVec 32) (why : Reserved) :
    (s.cfg.reservedPolicy = .refuse → s.stop word (.reserved why) = .refused (.reserved why)) ∧
    (s.cfg.reservedPolicy = .illegalInstruction → s.stop word (.reserved why) = .next (s.illegal word)) :=
  ⟨fun h => by rw [State.stop, h], fun h => by rw [State.stop, h]⟩

/-- Settles O6: a fetched word that is RESERVED stops by the policy, which the fetch leaves as it is. -/
theorem stepOtherWords : Obligations.StepOtherWords := by
  intro s hfetch reserved
  have hreserved : ∀ why, runWord s.fetchWord s.afterFetch = s.afterFetch.stop s.fetchWord (.reserved why) →
      reserved why := by
    intro why hrun
    have hstop := stop_reserved s.afterFetch s.fetchWord why
    rw [State.afterFetch_cfg] at hstop
    simp only [reserved, step_of_fetched hfetch, hrun]
    exact hstop
  refine ⟨fun why hdecode => hreserved why (runWord_of_reserved hdecode _), fun hmajor hfunc3 => ?_,
    fun i hdecode hhost => ?_⟩
  · have hdecode : decode s.fetchWord = .error .notMatrix :=
      decode_of_not_inMatrixSpace fun hspace => hfunc3 hspace.2
    exact hreserved .func3 ((runWord_of_notMatrix hdecode _).trans (otherWord_of_majorOpcode hmajor _))
  · rw [step_of_fetched hfetch, runWord_of_notMatrix hdecode, otherWord_of_host hhost]

/-! ### What a fetch sees -/

/-- What a fetch may see is the byte in memory or one that a store has replaced there. -/
theorem mem_fetchOptions {s : State} {a : Nat} {v : Byte} :
    v ∈ s.fetchOptions a ↔ v = s.byteAt a ∨ (a, v) ∈ s.stale := by
  simp [State.fetchOptions]

/-- The byte that a fetch sees is one of those it may see. -/
theorem fetchByte_cases (s : State) (k : Nat) :
    s.fetchByte k = s.byteAt (s.fetchAddr k) ∨ (s.fetchAddr k, s.fetchByte k) ∈ s.stale :=
  mem_fetchOptions.1 (pickByte_mem _ (List.cons_ne_nil _ _))

/-- Where no fetched byte was replaced by another, the fetch sees memory. -/
theorem fetchWord_of_coherent {s : State} (h : s.fetchCoherent = true) :
    s.fetchWord = wordOfBytes (s.byteAt (s.fetchAddr 0)) (s.byteAt (s.fetchAddr 1))
      (s.byteAt (s.fetchAddr 2)) (s.byteAt (s.fetchAddr 3)) := by
  have hbyte : ∀ k < 4, s.fetchByte k = s.byteAt (s.fetchAddr k) := fun k hk =>
    pickByte_of_allSame _ (List.all_eq_true.1 h k (List.mem_range.2 hk)) (mem_fetchOptions.2 (.inl rfl))
  rw [State.fetchWord, hbyte 0 (by decide), hbyte 1 (by decide), hbyte 2 (by decide), hbyte 3 (by decide)]

/-- Such a fetch draws no free value. -/
theorem afterFetch_of_coherent {s : State} (h : s.fetchCoherent = true) : s.afterFetch = s := if_pos h

/-- Settles O5: the fetched bytes by the choice among those in sight, the step by what the word decodes to. -/
theorem stepRunsDecoded : Obligations.StepRunsDecoded := by
  intro s i hfetch
  have hstep : decode s.fetchWord = .ok i → step s = exec i s.afterFetch := fun hdecode =>
    (step_of_fetched hfetch).trans (runWord_of_decoded hdecode _)
  refine ⟨rfl, fetchByte_cases s, fun hcoherent hdecode => ?_, hstep⟩
  rw [← fetchWord_of_coherent hcoherent] at hdecode
  rw [hstep hdecode, afterFetch_of_coherent hcoherent]

/-! ### Fetch exceptions -/

/-- Without the compressed extension an instruction lies at a multiple of 4. -/
theorem pcAligned_iff {s : State} (hc : s.cfg.compressed = false) : s.pcAligned = true ↔ s.pc.toNat % 4 = 0 := by
  simp [State.pcAligned, hc]

/-- The first byte of an instruction is at `pc`. -/
theorem fetchAddr_zero {s : State} (h : s.pc.toNat < 2 ^ s.cfg.xlen.bits) : s.fetchAddr 0 = s.pc.toNat :=
  Nat.mod_eq_of_lt h

/-- A `pc` that is not aligned. -/
theorem fetchFault_of_misaligned {s : State} (hc : s.cfg.compressed = false) (h : s.pc.toNat % 4 ≠ 0) :
    s.fetchFault = some (.fetchMisaligned, s.pc) :=
  if_neg fun hal => h ((pcAligned_iff hc).1 hal)

/-- An aligned `pc` whose first byte cannot be fetched. -/
theorem fetchFault_of_accessFault {s : State} (hc : s.cfg.compressed = false) (hal : s.pc.toNat % 4 = 0)
    (hlt : s.pc.toNat < 2 ^ s.cfg.xlen.bits) (h : s.fetchReach s.pc.toNat = .accessFault) :
    s.fetchFault = some (.fetchAccess, s.pc) := by
  have hbytes : s.fetchBytes = 4 := by simp [State.fetchBytes, hc]
  have hfirst : s.fetchByteFault 0 = some (.fetchAccess, s.pc) := by
    simp [State.fetchByteFault, fetchAddr_zero hlt, h]
  rw [State.fetchFault, if_pos ((pcAligned_iff hc).2 hal), hbytes, List.range_succ_eq_map, List.findSome?_cons, hfirst]

/-- Settles O7: the exception of the fetch is taken at once. -/
theorem fetchExceptions : Obligations.FetchExceptions := by
  intro s hc
  have htaken : ∀ e, s.fetchFault = some (e, s.pc) →
      ∃ t, step s = .next t ∧ TrapTaken s t e s.pc ∧ t.m = s.m ∧ t.x = s.x ∧ t.mem = s.mem ∧
        t.xmrstart = s.xmrstart ∧ t.mstatus.ms = s.mstatus.ms := by
    intro e hfault
    obtain ⟨-, hx, hm, hstart, -, -, -, -, -, -, hms, -, hmem, -⟩ := takeException_kept s e s.pc
    exact ⟨_, step_of_fetchFault hfault, trapTaken_takeException s e s.pc, hm, hx, hmem, hstart, hms⟩
  exact ⟨fun hpc => htaken _ (fetchFault_of_misaligned hc hpc),
    fun hal hlt hreach => htaken _ (fetchFault_of_accessFault hc hal hlt hreach)⟩

end Sys2Proof.Machine
end

section
/-! Taking a trap and returning from one (family 60_exceptions.md). -/

namespace Sys2Proof.Machine

/-! ### Trap entry -/

/-- A trap leaves `MS` alone. -/
theorem takeTrap_ms (s : State) (interrupt : Bool) (code : Nat) (tval : Word) :
    (s.takeTrap interrupt code tval).mstatus.ms = s.mstatus.ms := by
  unfold State.takeTrap
  split <;> rfl

/-- When a trap is delegated to supervisor mode. -/
theorem delegated_iff {s : State} {interrupt : Bool} {code : Nat} :
    s.delegated interrupt code = true ↔
      s.priv ≠ .m ∧ (if interrupt then s.mideleg else s.medeleg).getLsbD code = true := by
  simp [State.delegated]

/-- A delegated trap goes to supervisor mode. -/
theorem takeTrap_of_delegated {s : State} {interrupt : Bool} {code : Nat} (h : s.delegated interrupt code = true)
    (tval : Word) : s.takeTrap interrupt code tval = s.trapToS interrupt code tval := if_pos h

/-- Any other trap goes to machine mode. -/
theorem takeTrap_of_not_delegated {s : State} {interrupt : Bool} {code : Nat}
    (h : ¬ s.delegated interrupt code = true) (tval : Word) :
    s.takeTrap interrupt code tval = s.trapToM interrupt code tval := if_neg h

/-- The target of a trap: the base of the vector, or an entry of it for a vectored interrupt. -/
theorem trapPc_eq (l : Xlen) (tvec : Word) (interrupt : Bool) (code : Nat) :
    trapPc l tvec interrupt code =
      if interrupt = true ∧ tvec.extractLsb' 0 2 = 1#2
      then wrapX l ((tvec &&& ~~~3#64) + BitVec.ofNat 64 (4 * code)) else tvec &&& ~~~3#64 := by
  simp only [trapPc, Bool.and_eq_true, beq_iff_eq]

/-- Settles O20: what every trap keeps, and the record at the level it goes to. -/
theorem trapEntry : Obligations.TrapEntry := by
  intro s interrupt code tval
  refine ⟨State.takeTrap_m .., State.takeTrap_xmrstart .., State.takeTrap_xmxrm .., State.takeTrap_xmxsat ..,
    ⟨State.takeTrap_sizeM .., State.takeTrap_sizeN .., State.takeTrap_sizeK ..⟩, takeTrap_ms ..,
    State.takeTrap_instret .., fun hstays => ?_, fun hgoes => ?_⟩
  · have hdel : ¬ s.delegated interrupt code = true := by
      rw [delegated_iff]
      rintro ⟨hpriv, hbit⟩
      exact hstays.elim hpriv (by simp [hbit])
    rw [takeTrap_of_not_delegated hdel]
    exact ⟨rfl, rfl, rfl, rfl, rfl, rfl, rfl, trapPc_eq ..⟩
  · rw [takeTrap_of_delegated (delegated_iff.2 hgoes)]
    exact ⟨rfl, rfl, rfl, rfl, rfl, rfl, rfl, trapPc_eq ..⟩

/-- Settles O19: IllegalInstruction is an exception, whose trap value the configuration selects. -/
theorem illegalRecord : Obligations.IllegalRecord := by
  intro s word t
  obtain ⟨-, hx, hm, hstart, hrm, hsat, hsizes, hflags, hfrm, hbf16, hms, hfs, hmem, -⟩ :=
    takeException_kept s .illegal (if s.cfg.illegalTvalIsWord then word.setWidth 64 else 0)
  have htaken : TrapTaken s t .illegal (if s.cfg.illegalTvalIsWord then word.setWidth 64 else 0) :=
    trapTaken_takeException ..
  refine ⟨?_, hm, hstart, hrm, hsat, hsizes, hms, hfs, hflags, hfrm, hbf16, hx, hmem⟩
  split at htaken
  · exact .inl htaken
  · exact .inr htaken

/-! ### Trap return -/

/-- `MRET` in machine mode returns and retires. -/
theorem execHost_mret {s : State} (h : s.priv = .m) (word : BitVec 32) :
    execHost .mret word s = .next s.returnFromM.retire := if_pos h

/-- `MRET` below machine mode is illegal. -/
theorem execHost_mret_illegal {s : State} (h : s.priv ≠ .m) (word : BitVec 32) :
    execHost .mret word s = .next (s.illegal word) := if_neg h

/-- `SRET` above user mode returns and retires. -/
theorem execHost_sret {s : State} (h : s.priv ≠ .u) (word : BitVec 32) :
    execHost .sret word s = .next s.returnFromS.retire := if_neg h

/-- `SRET` in user mode is illegal. -/
theorem execHost_sret_illegal {s : State} (h : s.priv = .u) (word : BitVec 32) :
    execHost .sret word s = .next (s.illegal word) := if_pos h

/-- The bit that a trap to supervisor mode saves names the level it came from. -/
theorem priv_of_spp {p : Priv} (h : p ≠ .m) : (if p != .u then Priv.s else .u) = p := by
  cases p
  case m => exact absurd rfl h
  all_goals rfl

/-- Settles O21: the return reads back what the entry to its level has saved. -/
theorem trapReturn : Obligations.TrapReturn := by
  intro s e tval word resumes
  refine ⟨⟨_, execHost_mret rfl word, ?_, rfl⟩, fun hpriv => ⟨_, execHost_sret (by simp) word, ?_, rfl⟩,
    fun hpriv => execHost_mret_illegal hpriv word, fun hpriv => execHost_sret_illegal hpriv word⟩
  · exact ⟨rfl, rfl, rfl, rfl, rfl, rfl, ⟨rfl, rfl, rfl⟩, rfl, rfl, rfl, rfl⟩
  · exact ⟨rfl, priv_of_spp hpriv, rfl, rfl, rfl, rfl, ⟨rfl, rfl, rfl⟩, rfl, rfl, rfl, rfl⟩

end Sys2Proof.Machine
end

section
/-! The gates of matrix instructions that raise IllegalInstruction (family 60_exceptions.md): `MS` Off, an absent
feature, `FS` Off and an invalid `frm`. -/

namespace Sys2Proof.Machine

/-! ### A gate that fires -/

/-- Among gates that all raise IllegalInstruction it does not matter which one fires first. -/
theorem firstStop_eq_illegal {gates : List (Bool × Stop)} (rest : List (Bool × Stop))
    (hgates : ∀ c ∈ gates, c.2 = .illegal) (hfires : ∃ c ∈ gates, c.1 = true) :
    firstStop (gates ++ rest) = some .illegal := by
  induction gates with
  | nil => simp at hfires
  | cons c gates ih =>
    obtain ⟨hit, stop⟩ := c
    obtain ⟨hstop, hrest⟩ := List.forall_mem_cons.1 hgates
    cases hit with
    | true => exact congrArg some hstop
    | false => exact ih hrest (by simpa using hfires)

/-- An instruction with a gate that fires, before any other kind of check, raises IllegalInstruction. -/
theorem guard_illegal (s : State) (word : BitVec 32) {gates : List (Bool × Stop)} (rest : List (Bool × Stop))
    (go : Host.Outcome State Fault Refusal) (hgates : ∀ c ∈ gates, c.2 = .illegal)
    (hfires : ∃ c ∈ gates, c.1 = true) : s.guard word (gates ++ rest) go = .next (s.illegal word) := by
  rw [State.guard, firstStop_eq_illegal rest hgates hfires]
  rfl

/-! ### `MS` Off -/

/-- Every matrix instruction checks `MS` first. -/
theorem exec_eq_guard_offGate (i : Instr) (s : State) :
    ∃ rest go, exec i s = s.guard (encode i) ([s.offGate] ++ rest) go := by
  cases hl : isLoad i with
  | true =>
    obtain ⟨_, _, _, _, -, hexec⟩ | ⟨_, _, _, _, -, hexec⟩ := exec_load i s hl
    · exact ⟨_, _, hexec⟩
    · exact ⟨_, _, hexec⟩
  | false =>
    cases hs : isStore i with
    | true =>
      obtain ⟨_, _, _, _, -, hexec⟩ | ⟨_, _, _, _, -, hexec⟩ := exec_store i s hs
      · exact ⟨_, _, hexec⟩
      · exact ⟨_, _, hexec⟩
    | false =>
      obtain ⟨_, _, _, hexec, -⟩ := exec_plain i s hl hs
      exact ⟨_, _, hexec⟩

/-- With `MS` Off a matrix instruction raises IllegalInstruction. -/
theorem exec_illegal_of_off {s : State} (h : s.mstatus.ms = 0#2) (i : Instr) :
    exec i s = .next (s.illegal (encode i)) := by
  obtain ⟨rest, go, hexec⟩ := exec_eq_guard_offGate i s
  rw [hexec]
  exact guard_illegal s _ rest go (by simp [State.offGate]) (by simp [State.offGate, h])

/-! ### An absent feature -/

/-- An instruction whose feature is absent raises IllegalInstruction. -/
theorem guard_illegal_of_feature {s : State} {bit : Nat} (h : s.cfg.xmisa.getLsbD bit = false) (word : BitVec 32)
    (rest : List (Bool × Stop)) (go : Host.Outcome State Fault Refusal) :
    s.guard word ([s.offGate, s.featureGate bit] ++ rest) go = .next (s.illegal word) :=
  guard_illegal s word rest go (by simp [State.offGate, State.featureGate]) (by simp [State.featureGate, h])

/-- A float multiplication whose feature is absent. -/
theorem floatMul_illegal_of_feature {s : State} {k : FloatMulKind} (h : s.cfg.xmisa.getLsbD k.bit = false)
    (word : BitVec 32) (md ms2 ms1 : MIdx) : s.floatMul word k md ms2 ms1 = .next (s.illegal word) :=
  guard_illegal_of_feature h word _ _

/-- An integer multiplication whose feature is absent. -/
theorem intMul_illegal_of_feature {s : State} {k : IntMulKind} (h : s.cfg.xmisa.getLsbD k.bit = false)
    (word : BitVec 32) (md ms2 ms1 : MIdx) : s.intMul word k md ms2 ms1 = .next (s.illegal word) := by
  rw [State.intMul, State.intChecks, List.append_assoc]
  exact guard_illegal_of_feature h word _ _

/-- Bit 1 of `xmisa` is compulsory (10_state.md R44). -/
theorem xmisa_compulsory (c : Config) : c.xmisa.getLsbD 1 = true := by
  simp [Config.xmisa]

/-- Settles O17, by the kind of instruction: the gate of the feature is the second check of each. -/
theorem featureGate : Obligations.FeatureGate := by
  intro s md ms2 ms1 b off ill
  refine ⟨fun h => floatMul_illegal_of_feature h _ md ms2 ms1, fun h => floatMul_illegal_of_feature h _ md ms2 ms1,
    fun h => floatMul_illegal_of_feature h _ md ms2 ms1, fun h => floatMul_illegal_of_feature h _ md ms2 ms1,
    fun h => floatMul_illegal_of_feature h _ md ms2 ms1, xmisa_compulsory s.cfg, fun h => ?_, fun h => ?_,
    fun h i hi => ?_, fun h i hi => ?_⟩
  · have half : ∀ word signs, s.intMul word { signs, ws := 16, wd := 64, acc := .pair, bit := 2 } md ms2 ms1 =
        .next (s.illegal word) := fun word _ => intMul_illegal_of_feature h word md ms2 ms1
    simp only [List.forall_mem_cons]
    exact ⟨half _ _, half _ _, half _ _, half _ _, List.forall_mem_nil _⟩
  · have nibble : ∀ word signs, s.intMul word { signs, ws := 4, wd := 32, acc := .single, bit := 0 } md ms2 ms1 =
        .next (s.illegal word) := fun word _ => intMul_illegal_of_feature h word md ms2 ms1
    simp only [List.forall_mem_cons]
    exact ⟨nibble _ _, nibble _ _, nibble _ _, nibble _ _, List.forall_mem_nil _⟩
  · obtain ⟨go, hexec⟩ := exec_pointwiseS s md ms2 b i hi
    exact hexec.trans (guard_illegal_of_feature h _ _ go)
  · obtain ⟨go, hexec⟩ := exec_pointwiseD s md ms2 b i hi
    exact hexec.trans (guard_illegal_of_feature h _ _ go)

/-! ### `FS` Off and an invalid `frm` -/

/-- A float multiplication with `FS` Off or an invalid `frm`, whatever `MS` and the features are. -/
theorem floatMul_illegal {s : State} (h : s.mstatus.fs = 0#2 ∨ 5 ≤ s.frm.toNat) (word : BitVec 32)
    (k : FloatMulKind) (md ms2 ms1 : MIdx) : s.floatMul word k md ms2 ms1 = .next (s.illegal word) := by
  have hgates : ∀ c ∈ [s.offGate, s.featureGate k.bit, s.fsGate, s.frmGate], c.2 = .illegal := by
    simp [State.offGate, State.featureGate, State.fsGate, State.frmGate]
  refine guard_illegal s word _ _ hgates ?_
  rcases h with hfs | hfrm
  · exact ⟨s.fsGate, by simp, by simp [State.fsGate, hfs]⟩
  · exact ⟨s.frmGate, by simp, by simp [State.frmGate, hfrm]⟩

/-- Settles O18: the five are float multiplications, of one kind each. -/
theorem floatGates : Obligations.FloatGates := by
  intro s md ms2 ms1 h
  simp only [List.forall_mem_cons]
  exact ⟨floatMul_illegal h _ _ md ms2 ms1, floatMul_illegal h _ _ md ms2 ms1, floatMul_illegal h _ _ md ms2 ms1,
    floatMul_illegal h _ _ md ms2 ms1, floatMul_illegal h _ _ md ms2 ms1, List.forall_mem_nil _⟩

end Sys2Proof.Machine
end

section
/-! CSR accesses (families 47_host_interface.md and 60_exceptions.md): those that a check stops, and those of the
matrix CSRs and the counters. -/

namespace Sys2Proof.Machine

/-! ### Accesses that are illegal or RESERVED -/

/-- Why an access of a register is illegal: the level, `MS` Off at a matrix CSR that is gated, `FS` Off at a part of
`fcsr`, or a write of a read-only register (60_exceptions.md R428). -/
inductive State.Bars (s : State) (r : Csr) (writes : Bool) : Prop where
  | level (h : r.allowed s.priv = false)
  | matrix (hr : r.isMatrix = true) (hne : r ≠ .xmcsr) (hms : s.mstatus.ms = 0#2)
  | float (hr : r.isFloat = true) (hfs : s.mstatus.fs = 0#2)
  | readOnly (hw : writes = true) (hro : r.readOnly = true)

/-- The checks of an access that raise IllegalInstruction: all but the last, that of the reserved bits, which alone
looks at the value. -/
theorem csrChecks_take_illegal (s : State) (r : Csr) (writes : Bool) (value : Word) :
    ∀ c ∈ (s.csrChecks r writes value).take 4, c.2 = .illegal := by
  simp [State.csrChecks]

/-- An access that is barred fails one of them. -/
theorem State.Bars.fires {s : State} {r : Csr} {writes : Bool} (h : s.Bars r writes) (value : Word) :
    ∃ c ∈ (s.csrChecks r writes value).take 4, c.1 = true := by
  cases h with
  | level h => exact ⟨_, .head _, by simp [h]⟩
  | matrix hr hne hms => exact ⟨_, .tail _ (.head _), by simp [hr, hne, hms]⟩
  | float hr hfs => exact ⟨_, .tail _ (.tail _ (.head _)), by simp [hr, hfs]⟩
  | readOnly hw hro => exact ⟨_, .tail _ (.tail _ (.tail _ (.head _))), by simp [hw, hro]⟩

/-- A barred access raises IllegalInstruction. -/
theorem execHost_csr_illegal {s : State} {r : Csr} {addr : BitVec 12} (haddr : csrAt s.cfg addr = some r)
    {op : CsrOp} {src : XIdx} (h : s.Bars r (csrWrites op src)) (word : BitVec 32) (imm : Bool) (rd : XIdx) :
    execHost (.csr op imm rd addr src) word s = .next (s.illegal word) := by
  rw [execHost_csr haddr]
  exact guard_illegal s word _ _ (csrChecks_take_illegal s r _ 0) (h.fires 0)

/-- An address at which the host has no CSR is illegal. -/
theorem execHost_csr_none {s : State} {addr : BitVec 12} (haddr : csrAt s.cfg addr = none)
    (hhost : addr ∉ s.cfg.hostCsrs) (word : BitVec 32) (op : CsrOp) (imm : Bool) (rd src : XIdx) :
    execHost (.csr op imm rd addr src) word s = .next (s.illegal word) := by
  simp [execHost, State.csrInstr, haddr, hhost]

/-- A write that sets a reserved bit of an open register is refused under `RESERVED_POLICY = refuse`. -/
theorem execHost_csr_reserved {s : State} {r : Csr} {addr : BitVec 12} (haddr : csrAt s.cfg addr = some r)
    (hopen : s.Opens r) (hro : r.readOnly = false) (hpolicy : s.cfg.reservedPolicy = .refuse) {op : CsrOp}
    {src : XIdx} (hw : op = .write ∨ src ≠ 0) (word : BitVec 32) (imm : Bool) (rd : XIdx)
    (hbits : csrBitsOk r (csrMade op (s.csrRead r) (s.csrArg imm src)) = false) :
    execHost (.csr op imm rd addr src) word s = .refused (.reserved .csrBits) := by
  have hzero : csrBitsOk r 0 = true := by cases r <;> rfl
  have hgates : ∀ c ∈ (s.csrChecks r true 0).take 4, c.1 = false := fun c hc =>
    csrChecks_pass hopen (fun _ => ⟨hro, hzero⟩) c (List.mem_of_mem_take hc)
  rw [execHost_csr haddr, csrWrites_iff.2 hw]
  exact guard_refused word [] _ hpolicy hgates hbits

/-- Settles O58: each illegal clause names a check that fires; the reserved bits are checked last. -/
theorem csrRefusals : Obligations.CsrRefusals := by
  intro s word op imm rd src addr instr illegal made writes
  have barred : ∀ {r}, s.Bars r (csrWrites op src) → csrAt s.cfg addr = some r → illegal :=
    fun h haddr => execHost_csr_illegal haddr h word imm rd
  refine ⟨fun hw r hr => barred (.readOnly (csrWrites_iff.2 hw) ?_),
    fun haddr hhost => execHost_csr_none haddr hhost word op imm rd src,
    fun hpriv r hr => barred (.level ?_), fun hpriv r hr => barred (.level ?_),
    fun hfs r hr => barred (.float ?_ hfs),
    fun hw hms hpolicy => ⟨fun haddr hlarge => ?_, fun haddr hlarge => ?_⟩⟩
  · revert r
    decide
  · cases hp : s.priv
    case m => exact absurd hp hpriv
    all_goals revert r; decide
  · rw [hpriv]
    revert r
    decide
  · revert r
    decide
  · exact execHost_csr_reserved haddr ⟨rfl, fun _ => hms, nofun⟩ rfl hpolicy hw word imm rd
      (beq_eq_false_iff_ne.2 (Nat.div_pos hlarge (by decide)).ne')
  · exact execHost_csr_reserved haddr ⟨rfl, fun _ => hms, nofun⟩ rfl hpolicy hw word imm rd
      (beq_eq_false_iff_ne.2 (Nat.div_pos hlarge (by decide)).ne')

/-! ### Accesses that complete -/

/-- An access that passes its checks, whatever lets it pass. -/
theorem execHost_csr_of_pass {s : State} {r : Csr} {addr : BitVec 12} (haddr : csrAt s.cfg addr = some r)
    (word : BitVec 32) (op : CsrOp) (imm : Bool) (rd src : XIdx)
    (hpass : ∀ c ∈ s.csrChecks r (csrWrites op src) (csrMade op (s.csrRead r) (s.csrArg imm src)), c.1 = false) :
    execHost (.csr op imm rd addr src) word s =
      .next (((if csrWrites op src then s.csrWrite r (csrMade op (s.csrRead r) (s.csrArg imm src))
        else s.csrAfterRead r).setX rd (s.csrRead r)).advance) :=
  (execHost_csr haddr word op imm rd src).trans (guard_of_pass s word _ hpass)

/-- The set and clear forms with a zero source field write nothing. -/
theorem csrWrites_eq_false {op : CsrOp} (h : op ≠ .write) : csrWrites op 0 = false := by
  rw [Bool.eq_false_iff, ne_eq, csrWrites_iff]
  simp [h]

/-- The counters are no matrix CSRs and no parts of `fcsr`, so every level may read them; those of cycles and of time
are timers. -/
theorem opens_counters (s : State) :
    (∀ r ∈ [Csr.instret, .instreth], s.Opens r ∧ r.isTimer = false) ∧
      ∀ r ∈ [Csr.cycle, .time, .cycleh, .timeh], s.Opens r ∧ r.isTimer = true := by
  simp only [List.forall_mem_cons]
  exact ⟨⟨⟨⟨rfl, nofun, nofun⟩, rfl⟩, ⟨⟨rfl, nofun, nofun⟩, rfl⟩, List.forall_mem_nil _⟩,
    ⟨⟨rfl, nofun, nofun⟩, rfl⟩, ⟨⟨rfl, nofun, nofun⟩, rfl⟩, ⟨⟨rfl, nofun, nofun⟩, rfl⟩,
    ⟨⟨rfl, nofun, nofun⟩, rfl⟩, List.forall_mem_nil _⟩

/-- A read of a timer draws its value. -/
theorem execHost_csr_readTimer {s : State} {r : Csr} {addr : BitVec 12} (haddr : csrAt s.cfg addr = some r)
    (hopen : s.Opens r) (htimer : r.isTimer = true) {op : CsrOp} (hop : op ≠ .write) (word : BitVec 32)
    (imm : Bool) (rd : XIdx) :
    execHost (.csr op imm rd addr 0) word s =
      .next (({ s with draws := s.draws + 1 } : State).setX rd (s.csrRead r)).advance := by
  rw [execHost_csr_of_pass haddr word op imm rd 0 (csrChecks_pass hopen (by rw [csrWrites_eq_false hop]; nofun)),
    csrWrites_eq_false hop, State.csrAfterRead, if_pos htimer]
  rfl

/-- A matrix CSR with `MS` on is open to every level and is no timer. -/
theorem opens_of_isMatrix {s : State} (hms : s.mstatus.ms ≠ 0#2) {r : Csr} (hr : r.isMatrix = true) :
    s.Opens r ∧ r.isTimer = false := by
  cases r
  case xmrstart | xmcsr | xmxrm | xmxsat | xmsize | xmregsize | xmlenb | xmisa =>
    exact ⟨⟨rfl, fun _ => hms, nofun⟩, rfl⟩
  all_goals cases hr

/-- A write of `xmxrm` keeps the two low bits of the value. -/
theorem csrWrite_xmxrm (s : State) (v : Word) :
    s.csrWrite .xmxrm v = ({ s with xmxrm := v.setWidth 2 } : State).dirtyMS := by
  have hbits : (wrapX s.cfg.xlen v).setWidth 2 = v.setWidth 2 := by
    rw [setWidth_wrapX _ _ (by decide), BitVec.setWidth_eq_extractLsb' (by decide)]
  rw [← hbits]
  rfl

/-- A write of `xmcsr` sets `xmxsat` and `xmxrm`. -/
theorem csrWrite_xmcsr (s : State) (v : Word) :
    s.csrWrite .xmcsr v =
      ({ s with xmxsat := v.getLsbD 0, xmxrm := v.extractLsb' 1 2 } : State).dirtyMS := by
  have hlen : 1 + 2 ≤ s.cfg.xlen.bits := by cases s.cfg.xlen <;> simp [Xlen.bits]
  rw [← getLsbD_wrapX_low s.cfg.xlen v (by decide : 0 < 32), ← extractLsb'_wrapX (l := s.cfg.xlen) v hlen]
  rfl

/-- A value that sets no reserved bit of `xmxrm`. -/
theorem csrBitsOk_xmxrm {v : Word} (h : v.toNat < 4) : csrBitsOk .xmxrm v = true :=
  beq_iff_eq.2 (Nat.div_eq_of_lt h)

/-- A value that sets no reserved bit of `xmcsr`. -/
theorem csrBitsOk_xmcsr {v : Word} (h : v.toNat < 8) : csrBitsOk .xmcsr v = true :=
  beq_iff_eq.2 (Nat.div_eq_of_lt h)

/-- Settles O57: the counters are open to every level, the matrix CSRs with `MS` on; each write by what it sets. -/
theorem matrixCsrAccess : Obligations.MatrixCsrAccess := by
  intro s word op imm rd src addr
  refine ⟨fun hop hsrc => ⟨fun r hr haddr => ?_, fun r hr haddr => ?_⟩, fun hms => ?_⟩
  · subst hsrc
    obtain ⟨hopen, htimer⟩ := (opens_counters s).1 r hr
    exact execHost_csr_read haddr hopen htimer hop word imm rd
  · subst hsrc
    obtain ⟨hopen, htimer⟩ := (opens_counters s).2 r hr
    exact ⟨_, execHost_csr_readTimer haddr hopen htimer hop word imm rd⟩
  · intro made gives
    refine ⟨fun hop hsrc r hr haddr => ?_, fun hw => ⟨fun haddr => ?_, fun haddr hv => ?_, fun haddr hv => ?_⟩⟩
    · subst hsrc
      obtain ⟨hopen, htimer⟩ := opens_of_isMatrix hms hr
      exact execHost_csr_read haddr hopen htimer hop word imm rd
    · exact execHost_csr_write haddr (opens_of_isMatrix hms rfl).1 hw rfl word imm rd rfl
    · rw [← csrWrite_xmxrm]
      exact execHost_csr_write haddr (opens_of_isMatrix hms rfl).1 hw rfl word imm rd (csrBitsOk_xmxrm hv)
    · rw [← csrWrite_xmcsr]
      exact execHost_csr_write haddr (opens_of_isMatrix hms rfl).1 hw rfl word imm rd (csrBitsOk_xmcsr hv)

/-! ### `MS` Off -/

/-- `xmcsr` is exempt from the gate of `MS`: an access passes unless it writes reserved bits (decision D18). -/
theorem csrChecks_xmcsr_pass (s : State) {writes : Bool} {value : Word}
    (h : writes = true → csrBitsOk .xmcsr value = true) : ∀ c ∈ s.csrChecks .xmcsr writes value, c.1 = false := by
  simp only [State.csrChecks, List.forall_mem_cons]
  refine ⟨rfl, rfl, rfl, by simp [Csr.readOnly], ?_, List.forall_mem_nil _⟩
  cases writes
  · rfl
  · simp [h rfl]

/-- Settles O16: instructions by the gate of `MS`, CSRs by theirs, and `xmcsr` by its exemption. -/
theorem offGate : Obligations.OffGate := by
  intro s hms
  refine ⟨exec_illegal_of_off hms, fun r hr => ?_,
    fun word op imm rd addr src haddr => ⟨fun hop hsrc => ?_, fun hw => ?_⟩⟩
  · have hgated : r.isMatrix = true ∧ r ≠ .xmcsr := by
      revert r
      decide
    exact fun word op imm rd addr src haddr =>
      execHost_csr_illegal haddr (.matrix hgated.1 hgated.2 hms) word imm rd
  · subst hsrc
    rw [execHost_csr_of_pass haddr word op imm rd 0 (csrChecks_xmcsr_pass s (by rw [csrWrites_eq_false hop]; nofun)),
      csrWrites_eq_false hop]
    rfl
  · intro v hv
    rw [execHost_csr_of_pass haddr word op imm rd src (csrChecks_xmcsr_pass s fun _ => csrBitsOk_xmcsr hv),
      csrWrites_iff.2 hw, if_pos rfl, csrWrite_xmcsr]

end Sys2Proof.Machine
end

section
/-! Host instructions (family 47_host_interface.md), and what a matrix instruction leaves of the host's registers and
memory. -/

namespace Sys2Proof.Machine

/-! ### Integer registers and memory -/

/-- No next state of a matrix instruction has another integer register. -/
theorem NextOf.x_kept {i : Instr} {s t : State} (h : NextOf i s t) : t.x = s.x := by
  cases h with
  | plain u _ _ hu ht => exact ht ▸ hu.host.x
  | illegal ht => exact ht ▸ State.takeTrap_x ..
  | loadDone x n md _ _ _ ht => exact ht ▸ State.setGroup_x ..
  | loadPart x n md row reports _ _ _ _ ht =>
    obtain ⟨-, hx, -⟩ := rowTrap_kept (s.loadPart x n md row) row reports
    exact ht ▸ hx.trans (hostKept_loadPart s x n md row).x
  | storeDone x ms3 _ _ ht => exact ht ▸ rfl
  | storePart x ms3 row reports _ _ _ ht =>
    obtain ⟨-, hx, -⟩ := rowTrap_kept (s.storePart x ms3 row) row reports
    exact ht ▸ hx

/-- An instruction that is no store leaves memory as it is, whether it completes or traps. -/
theorem NextOf.mem_kept {i : Instr} {s t : State} (h : NextOf i s t) (hi : isStore i = false) : t.mem = s.mem := by
  cases h with
  | plain u _ _ hu ht => exact ht ▸ hu.mem
  | illegal ht => exact ht ▸ State.takeTrap_mem ..
  | loadDone x n md _ _ _ ht => exact ht ▸ State.setGroup_mem ..
  | loadPart x n md row reports _ _ _ _ ht =>
    obtain ⟨-, -, -, -, -, -, -, -, -, -, -, -, hmem, -⟩ := rowTrap_kept (s.loadPart x n md row) row reports
    exact ht ▸ hmem.trans (State.setGroup_mem ..)
  | storeDone _ _ hs => rw [hi] at hs; cases hs
  | storePart _ _ _ _ hs => rw [hi] at hs; cases hs

/-- Settles O12, from the next states of `exec`. -/
theorem noIntegerWrite : Obligations.NoIntegerWrite :=
  fun _ _ _ h => ⟨(exec_next h).x_kept, (exec_next h).mem_kept⟩

/-! ### Instructions that write an integer register -/

/-- An instruction that writes `x[rd]` and advances. -/
theorem setX_advance_kept (s : State) (rd : XIdx) (v : Word) :
    let t := (s.setX rd v).advance
    t.pc = s.nextPc ∧ t.instret = s.instret + 1 ∧ t.m = s.m ∧ t.mem = s.mem ∧ t.xval 0 = 0 ∧
      (rd ≠ 0 → t.xval rd = wrapX s.cfg.xlen v) ∧ ∀ r, r ≠ rd → t.xval r = s.xval r :=
  ⟨by simp [State.nextPc], by simp, by simp, by simp, xval_zero _, fun hrd => xval_setX_same s v hrd,
    fun _ hr => xval_setX_of_ne s v hr⟩

/-! ### Branches -/

/-- The offset of a branch counts halfwords: a zero bit below it doubles it. -/
theorem signExtend_append_zero {n : Nat} (hn : n ≠ 0) (off : BitVec n) :
    (off ++ 0#1).signExtend 64 = off.signExtend 64 * 2 := by
  have htwo : (2 : Word) = BitVec.twoPow 64 1 := rfl
  rw [htwo, BitVec.mul_twoPow_eq_shiftLeft]
  ext i hi
  cases i with
  | zero => simp [BitVec.getElem_signExtend, BitVec.getElem_append]
  | succ i => simp [BitVec.getElem_signExtend, BitVec.getElem_append, BitVec.msb_append, hn]

/-- A branch that is taken. -/
theorem execHost_bne_taken {s : State} {rs1 rs2 : XIdx} (h : s.xval rs1 ≠ s.xval rs2) (off : BitVec 12)
    (word : BitVec 32) :
    execHost (.bne rs1 rs2 off) word s =
      .next { s with
        pc := wrapX s.cfg.xlen (s.pc + off.signExtend 64 * 2), instret := s.instret + 1 } := by
  rw [← signExtend_append_zero (by decide)]
  exact if_neg h

/-! ### Environment calls and breakpoints -/

/-- An exception that a host instruction raises: the trap is taken and nothing else changes. -/
theorem takeException_raises (s : State) (e : Exc) (tval : Word) :
    let t := s.takeException e tval
    TrapTaken s t e tval ∧ t.instret = s.instret ∧ t.m = s.m ∧ t.x = s.x ∧ t.mem = s.mem ∧
      t.xmrstart = s.xmrstart ∧ t.mstatus.ms = s.mstatus.ms := by
  obtain ⟨-, hx, hm, hstart, -, -, -, -, -, -, hms, -, hmem, -, -, hret⟩ := takeException_kept s e tval
  exact ⟨trapTaken_takeException s e tval, hret, hm, hx, hmem, hstart, hms⟩

/-! ### `FENCE.I` -/

/-- With no replaced byte in sight a fetch sees memory. -/
theorem fetchCoherent_of_stale_nil {s : State} (h : s.stale = []) : s.fetchCoherent = true := by
  have hsame : ∀ a, allSame (s.fetchOptions a) = true := fun a => by simp [State.fetchOptions, h, allSame]
  simp [State.fetchCoherent, hsame]

/-- Settles O60, instruction by instruction. -/
theorem hostInstructions : Obligations.HostInstructions := by
  intro s word rd rs1 rs2 imm big sets raises
  refine ⟨⟨_, rfl, setX_advance_kept s rd _⟩, ⟨_, rfl, setX_advance_kept s rd _⟩,
    fun hne => execHost_bne_taken hne imm word, fun heq => if_pos heq, rfl, rfl, fun hpriv => if_neg hpriv,
    fun hpriv => if_pos hpriv, ⟨_, _, rfl, by cases s.priv <;> rfl, takeException_raises s _ 0⟩, ?_, _, rfl, rfl, ?_⟩
  · have hraises : ∀ tval, execHost .ebreak word s = .next (s.takeException .breakpoint tval) →
        raises .ebreak 3 tval := fun tval h => ⟨_, _, h, rfl, takeException_raises s _ tval⟩
    cases htval : s.cfg.breakpointTvalIsPc
    · exact .inr (hraises 0 (by simp [execHost, State.breakpoint, htval]))
    · exact .inl (hraises s.pc (by simp [execHost, State.breakpoint, htval]))
  · have hcoherent : ({ s with stale := [] } : State).advance.fetchCoherent = true := fetchCoherent_of_stale_nil rfl
    exact ⟨hcoherent, fetchWord_of_coherent hcoherent⟩

end Sys2Proof.Machine
end

section
/-! The row that a trapping transfer reports (family 60_exceptions.md), the reset state, and words written out by the
spec (family 95_test_vectors.md). -/

namespace Sys2Proof.Machine

/-! ### The lowest faulting row -/

/-- In a row where nothing goes wrong no element raises an exception and none is RESERVED. -/
theorem clean_of_rowTrouble_eq_none {s : State} {store : Bool} {t : Transfer} {q : Nat}
    (h : s.rowTrouble store t q = none) :
    ∀ k ∈ t.elems, s.elemFaults store t q k = [] ∧ s.elemReserved store t q k = none := by
  unfold State.rowTrouble at h
  split at h
  · cases h
  · rename_i hreserved
    split at h
    · rename_i hfaults
      exact fun k hk => ⟨List.flatMap_eq_nil_iff.1 hfaults k hk, List.findSome?_eq_none_iff.1 hreserved k hk⟩
    · cases h

/-- The elements of a row, by their number. -/
theorem mem_elems {t : Transfer} {k : Nat} : k ∈ t.elems ↔ k < t.rowBytes / t.esize := List.mem_range

/-- Settles O53: the reports are those of the elements of the row, and the rows before it are clean. -/
theorem lowestFaultingRow : Obligations.LowestFaultingRow := by
  intro s store t row reports h
  obtain ⟨hstart, hrow, hreports, hne, -, hbefore⟩ := trouble_faults h
  refine ⟨hstart, hrow, hne, fun r hr => ?_, fun q k hq hlt hk =>
    clean_of_rowTrouble_eq_none (hbefore q hq hlt) k (mem_elems.2 hk)⟩
  obtain ⟨k, hk, hmem⟩ := List.mem_flatMap.1 (hreports ▸ hr)
  exact ⟨k, mem_elems.1 hk, hmem⟩

/-! ### Reset -/

/-- Settles O11: the level and the fields of the reset state, and the constant CSRs as they read in every state. -/
theorem resetHost : Obligations.ResetHost :=
  ⟨rfl, rfl, rfl, csrRead_xmlenb State.reset, csrRead_xmregsize State.reset, rfl⟩

/-! ### Words of the spec -/

/-- Settles O3: the decoder computes on each word. -/
theorem decodeWords : Obligations.DecodeWords := by
  refine ⟨?_, ?_, ?_, ?_, ?_, ?_, ?_, ?_, ?_, ?_, ?_, ?_, ?_, ?_, ?_⟩ <;> decide

end Sys2Proof.Machine
end
